-- ==== Sys2Proof/Word.lean ====
section
/-! DEFINITION. The words of the block: 00_scope.md R6 (NIBBLE_W, BYTE_W, CMD_W, RSP_W), all unsigned (R9). -/

namespace Sys2Proof

/-- A nibble, 0 to 15 (R6, R9). -/
abbrev Nibble := BitVec 4

/-- A byte-side unit, 0 to 255 (R6, R9). -/
abbrev Byte := BitVec 8

/-- A command word, `cmd_word[15:0]` (R6, 30_encoding.md R70). -/
abbrev CmdWord := BitVec 16

/-- A response word, `rsp_word[11:0]` (R6, 30_encoding.md R76). -/
abbrev RspWord := BitVec 12

end Sys2Proof
end

