-- ==== Sys2Proof/Syntax.lean ====
section
/-! DEFINITION. The seven commands (30_encoding.md R71) with their operands as R73 ranges them, the three fields of
a command word (R70), and the assembler's commands (R83) with its two pseudo-instructions (R84). -/

namespace Sys2Proof

/-- DIR of OPEN: 0 = read, 1 = write (30_encoding.md R73). -/
inductive Direction where
  | read
  | write
  deriving DecidableEq, Repr, Inhabited

/-- A command of the block; one constructor per row of the opcode table. An operand's type is its field's width,
so every value of this type is well formed. -/
inductive Instr where
  /-- OPEN, 40_stream.md R90. -/
  | openSession (dir : Direction)
  /-- RDN, 40_stream.md R94. -/
  | rdn
  /-- WRN, 40_stream.md R101. -/
  | wrn (nib : Nibble)
  /-- CLOSE, 40_stream.md R108. -/
  | close
  /-- LENC, 41_lut.md R120. -/
  | lenc (byte : Byte)
  /-- LDEC, 41_lut.md R125. -/
  | ldec (idx : Nibble)
  /-- STAT, 42_status.md R135. -/
  | stat
  deriving DecidableEq, Repr

/-- The three fields of a command word before they are checked (30_encoding.md R70). -/
structure CmdFields where
  /-- bits 15:12 -/
  op : BitVec 4
  /-- bits 11:8 -/
  rsv : BitVec 4
  /-- bits 7:0 -/
  arg : Byte
  deriving DecidableEq, Repr

/-- A command as the assembler writes it, operands as the numbers that stand in the text (30_encoding.md R83), and
the pseudo-instructions of R84. -/
inductive AsmCmd where
  | openR
  | openW
  | rdn
  | wrn (n : Nat)
  | close
  | lenc (b : Nat)
  | lencChar (c : Char)
  | ldec (i : Nat)
  | stat
  | wrb (b : Nat)
  | esc (b : Nat)
  deriving DecidableEq, Repr

end Sys2Proof
end

