-- ==== Sys2Proof/Decode.lean ====
section
/-! DEFINITION. Decoding of a command word, total on every 16-bit word and rejecting by name (30_encoding.md R74),
and after it the encoder, written from the operand layouts of R73 and the opcode column of R71. -/

namespace Sys2Proof

/-- Why a word decodes to Illegal: the three checks of 30_encoding.md R74, in their order. -/
inductive Illegal where
  /-- OP is 0x0 or 0x8 to 0xF (R75). -/
  | reservedOp
  /-- RSV is not 0000 (R72). -/
  | reservedBits
  /-- ARG is not a legal value of the operation (R73). -/
  | argument
  deriving DecidableEq, Repr

/-- What a command word decodes to. -/
inductive Decoded where
  | legal (i : Instr)
  | illegal (why : Illegal)
  deriving DecidableEq, Repr

/-- The fields of a word (R70). -/
def CmdFields.ofWord (w : CmdWord) : CmdFields :=
  { op := w.extractLsb' 12 4, rsv := w.extractLsb' 8 4, arg := w.extractLsb' 0 8 }

/-- The word of three fields (R70). -/
def CmdFields.toWord (f : CmdFields) : CmdWord := f.op ++ f.rsv ++ f.arg

/-- ARG[7:4] (R73). -/
def argHigh (arg : Byte) : Nibble := arg.extractLsb' 4 4

/-- ARG[3:0], the operand NIB or IDX (R73). -/
def argLow (arg : Byte) : Nibble := arg.extractLsb' 0 4

/-- The ARG of an operand of four bits: ARG[7:4] = 0 (R73). -/
def nibbleArg (n : Nibble) : Byte := n.setWidth 8

/-- The last step of R74: the operation of a legal OP, where its ARG is legal. -/
def decodeOp (op : BitVec 4) (arg : Byte) : Decoded :=
  match op.toNat with
  | 0x1 =>
    if arg = 0x00 then .legal (.openSession .read)
    else if arg = 0x01 then .legal (.openSession .write)
    else .illegal .argument
  | 0x2 => if arg = 0x00 then .legal .rdn else .illegal .argument
  | 0x3 => if argHigh arg = 0 then .legal (.wrn (argLow arg)) else .illegal .argument
  | 0x4 => if arg = 0x00 then .legal .close else .illegal .argument
  | 0x5 => .legal (.lenc arg)
  | 0x6 => if argHigh arg = 0 then .legal (.ldec (argLow arg)) else .illegal .argument
  | 0x7 => if arg = 0x00 then .legal .stat else .illegal .argument
  | _ => .illegal .reservedOp

/-- OP values that select an operation (R71). -/
def opSelects (op : BitVec 4) : Bool := decide (1 ≤ op.toNat ∧ op.toNat ≤ 7)

/-- `decode` of R74. -/
def decode (w : CmdWord) : Decoded :=
  let f := CmdFields.ofWord w
  if opSelects f.op = false then .illegal .reservedOp
  else if f.rsv ≠ 0 then .illegal .reservedBits
  else decodeOp f.op f.arg

/-- The instruction a word decodes to, where it decodes to one. -/
def Decoded.instr? : Decoded → Option Instr
  | .legal i => some i
  | .illegal _ => none

/-- DIR as ARG[0] (R73). -/
def Direction.arg : Direction → Byte
  | .read => 0x00
  | .write => 0x01

/-- OP of a command (R71). -/
def Instr.op : Instr → BitVec 4
  | .openSession _ => 0x1
  | .rdn => 0x2
  | .wrn _ => 0x3
  | .close => 0x4
  | .lenc _ => 0x5
  | .ldec _ => 0x6
  | .stat => 0x7

/-- ARG of a command (R73). -/
def Instr.arg : Instr → Byte
  | .openSession dir => dir.arg
  | .rdn => 0x00
  | .wrn nib => nibbleArg nib
  | .close => 0x00
  | .lenc byte => byte
  | .ldec idx => nibbleArg idx
  | .stat => 0x00

/-- The word of a command (R70 to R73); RSV is 0000. -/
def encode (i : Instr) : CmdWord := CmdFields.toWord { op := i.op, rsv := 0, arg := i.arg }

/-- The command word whose low `nbits` bits are those of `w` and whose other bits are 0: the opcode table's numbering
is that of R70, one word of 16 bits (log 13). -/
def tableWord (nbits w : Nat) : CmdWord := BitVec.ofNat 16 (w % 2 ^ nbits)

/-- The instruction the decoder reads from a word given as the opcode table numbers it. -/
def decodeTableWord (nbits w : Nat) : Option Instr := (decode (tableWord nbits w)).instr?

end Sys2Proof
end

