-- ==== Sys2Proof/Config.lean ====
section
/-! DEFINITION. What the spec leaves to the environment or to the realisation (00_scope.md R7): the answers of the
byte side, free where no script gives them (log 1), and the two open parameters that no rule depends on. -/

namespace Sys2Proof

/-- The environment's answer to BOPEN (20_memory.md R53). -/
inductive OpenOutcome where
  | ok
  | fail
  deriving DecidableEq, Repr, Inhabited

/-- The environment's answer to BREAD (20_memory.md R54). -/
inductive SrcAnswer where
  | byte (b : Byte)
  | eod
  | ioerr
  deriving DecidableEq, Repr, Inhabited

/-- The environment's answer to BWRITE (20_memory.md R55). -/
inductive SnkAnswer where
  | ok
  | ioerr
  deriving DecidableEq, Repr, Inhabited

/-- The environment's answer to BCLOSE (20_memory.md R56). -/
inductive CloseAnswer where
  | ok
  | ioerr
  deriving DecidableEq, Repr, Inhabited

/-- How the reset input acts at signal level (10_state.md R22). -/
inductive ResetKind where
  | synchronous
  | asynchronous
  deriving DecidableEq, Repr, Inhabited

/-- The free answer to the `n`-th byte-side request where it is a BOPEN no script answers (R53: "a free input of the
step"; log 1). -/
opaque Config.freeOpenOutcome : Nat → OpenOutcome

/-- The free answer to the `n`-th byte-side request where it is a BREAD no script answers (R54, log 1). -/
opaque Config.freeSrcAnswer : Nat → SrcAnswer

/-- The free answer to the `n`-th byte-side request where it is a BWRITE no script answers (R55, log 1). -/
opaque Config.freeSnkAnswer : Nat → SnkAnswer

/-- The free answer to the `n`-th byte-side request where it is a BCLOSE no script answers (R56, log 1). -/
opaque Config.freeCloseAnswer : Nat → CloseAnswer

/-- RESET_KIND (R7, R22): nothing a model without time can show depends on it (log 5). -/
opaque Config.resetKind : ResetKind

/-- LAT, the clock cycles a command takes at signal level (R7, 70_reset_and_hazards.md R189): "an open parameter
that no rule depends on" (log 6). -/
opaque Config.lat : Instr → Nat

end Sys2Proof
end

