-- ==== Sys2Proof/Machine/State.lean ====
section
/-! DEFINITION. The machine's state as plain data: the four registers of 10_state.md R23 (the constant CLUT is
`Sys2Proof.Machine.clut`), the RST level, and the two sides of the ports of R21: what is still to come in (`input`, `env`)
and what has gone out (`trace`). -/

namespace Sys2Proof.Machine

/-- MODE (10_state.md R26). The code 11 is never held, so the type lacks it (U14, log 12). -/
inductive Mode where
  | idle
  | read
  | write
  deriving DecidableEq, Repr

/-- The five fault causes (60_exceptions.md R160). -/
inductive FaultCause where
  | illegalCmd
  | notOpen
  | alreadyOpen
  | wrongDir
  | ioError
  deriving DecidableEq, Repr

/-- ST of a response (30_encoding.md R77). -/
inductive St where
  | ok
  | eos
  | openFail
  | fault
  deriving DecidableEq, Repr

/-- A response as the record (ST, FLAG, DATA) (30_encoding.md R76, R80); `Response.word` is its 12-bit word. -/
structure Response where
  st : St
  flag : Bool
  data : Byte
  deriving DecidableEq, Repr

/-- One event on the block's channels (10_state.md R21): a byte-side request with its answer, or a response on CMD. -/
inductive Event where
  | bopen (dir : Direction) (answer : OpenOutcome)
  | bread (answer : SrcAnswer)
  | bwrite (b : Byte) (answer : SnkAnswer)
  | bclose (answer : CloseAnswer)
  | rsp (r : Response)
  deriving DecidableEq, Repr

/-- What the host does at the block's inputs (10_state.md R21): it offers a command word, or it drives the RST
level. -/
inductive HostInput where
  | cmd (w : CmdWord)
  | rst (asserted : Bool)
  deriving DecidableEq, Repr

/-- The answers one byte-side channel has still to give: `answers` in order, then `after` for ever; where `after` is
`none`, free draws (log 1). -/
structure Script (α : Type) where
  answers : List α
  after : Option α
  deriving DecidableEq, Repr

/-- The environment as draws (20_memory.md R53 to R56): a script per channel. `draws` counts the requests made; it is the
model's own and only picks the next free value of Config (log 1). -/
structure Scripts where
  opens : Script OpenOutcome
  reads : Script SrcAnswer
  writes : Script SnkAnswer
  closes : Script CloseAnswer
  draws : Nat
  deriving DecidableEq, Repr

/-- The deterministic environment of 20_memory.md R57: the streams of sessions as lists of bytes. -/
structure ListSide where
  /-- The stream the host has attached for the next read session (R52, 70_reset_and_hazards.md R188). -/
  attached : List Byte
  /-- The streams the host attaches after that one, in order; past the last, the same stream stays attached (log 19). -/
  later : List (List Byte)
  /-- `S`, the stream of the read session. -/
  source : List Byte
  /-- `k`, the cursor in `S`. -/
  cursor : Nat
  /-- `W`, the stream of the write session. -/
  sink : List Byte
  deriving DecidableEq, Repr

/-- The byte-side environment (10_state.md R20): draws, or the one instance of them that R57 gives. -/
inductive ByteSide where
  | scripted (q : Scripts)
  | lists (l : ListSide)
  deriving DecidableEq, Repr

/-- The state of a run. -/
structure State where
  /-- MODE (R26). -/
  mode : Mode
  /-- PV (R28): a nibble is pending. -/
  pv : Bool
  /-- PEND (R28): its value, meaningful while PV = 1 (R29). -/
  pend : Nibble
  /-- FCODE (R32); `none` is the code 000, "no fault". -/
  fcode : Option FaultCause
  /-- The RST input level (R21, R22): true while asserted. -/
  rst : Bool
  /-- What the host still does at the block's inputs, in order (R20, R25). -/
  input : List HostInput
  /-- The byte-side environment (R20). -/
  env : ByteSide
  /-- The byte-side transactions and the responses so far, in order (R65, R76). -/
  trace : List Event
  deriving DecidableEq, Repr

/-- A byte side of which nothing is scripted: every answer is a free draw (log 1, log 2). -/
def ByteSide.free : ByteSide :=
  .scripted { opens := ⟨[], none⟩, reads := ⟨[], none⟩, writes := ⟨[], none⟩, closes := ⟨[], none⟩, draws := 0 }

/-- The block right after reset (10_state.md R41): MODE = IDLE, PV = 0, PEND = 0000, FCODE = 000. RST is released, no
input is waiting, nothing has gone out, and the environment is free (log 2). -/
def State.reset : State :=
  { mode := .idle, pv := false, pend := 0, fcode := none, rst := false, input := [], env := ByteSide.free, trace := [] }

/-- Reasons for a stop that is not a refusal: there is none. A fault of the block (60_exceptions.md R163) is a next
state with FCODE set and a FAULT response, since the spec gives its entry whole and STAT runs after it (R136; log 8).
Safe and exact: no step answers a fault. -/
inductive Fault where
  deriving DecidableEq, Repr

/-- Reasons for refusing an instruction. -/
inductive Refusal where
  /-- Raised only by an arm of exec whose instruction has no meaning yet; safe. No arm of this model raises it. -/
  | notModelled (mnemonic : String)
  deriving DecidableEq, Repr

end Sys2Proof.Machine
end

