-- ==== Sys2Proof/Machine/Operands.lean ====
section
/-! DEFINITION. Operands: the packing and splitting of bytes (20_memory.md R58), DIR as a mode (40_stream.md R92), and
the code table with its two lookups (10_state.md R36 to R38, 41_lut.md R121, R127). -/

namespace Sys2Proof.Machine

/-- Bits 7:4, the first nibble of a byte in stream order (R58). -/
def highNibble (b : Byte) : Nibble := b.extractLsb' 4 4

/-- Bits 3:0, the second nibble of a byte in stream order (R58). -/
def lowNibble (b : Byte) : Nibble := b.extractLsb' 0 4

/-- `{hi, lo}` (00_scope.md R9). -/
def packNibbles (hi lo : Nibble) : Byte := hi ++ lo

/-- PAD_NIBBLE (00_scope.md R6, 20_memory.md R60). -/
def padNibble : Nibble := 0

/-- `zext_8` of a nibble (00_scope.md R9). -/
def zextNibble (n : Nibble) : Byte := n.setWidth 8

/-- The MODE a successful OPEN enters (40_stream.md R92). -/
def modeOf : Direction → Mode
  | .read => .read
  | .write => .write

/-- A table of 16 bytes, indices 0 to 15 (10_state.md R36). -/
abbrev CodeTable := Vector Byte 16

/-- The entry at an index: the 16-to-1 multiplexer (41_lut.md R127). -/
def CodeTable.entry (t : CodeTable) (i : Nibble) : Byte := t.get i.toFin

/-- The contents of CLUT (10_state.md R36): the escape marker, then space, e t n r o a i s d l h c f p in ASCII
(log 11). -/
def clut : CodeTable :=
  #v[0x00, 0x20, 0x65, 0x74, 0x6E, 0x72, 0x6F, 0x61, 0x69, 0x73, 0x64, 0x6C, 0x68, 0x63, 0x66, 0x70]

/-- ESC_IDX (00_scope.md R6). -/
def escIdx : Nibble := 0

/-- The indices LENC compares, in scan order: 1 to 15 (41_lut.md R121). -/
def codeIndices : List Nibble := [1, 2, 3, 4, 5, 6, 7, 8, 9, 10, 11, 12, 13, 14, 15]

/-- The scan of 41_lut.md R120: the index of the last matching entry of 1 to 15, `none` for a miss. -/
def CodeTable.scan (t : CodeTable) (b : Byte) : Option Nibble :=
  codeIndices.foldl (fun found i => if t.entry i = b then some i else found) none

end Sys2Proof.Machine
end

