-- ==== Sys2Proof/Machine/Flags.lean ====
section
/-! DEFINITION. The bit codes of MODE and FCODE (10_state.md R26, R32), the STATUS byte (R34) and the response word with
its ST and FLAG fields (30_encoding.md R76, R77). -/

namespace Sys2Proof.Machine

/-- MODE's code (R26). -/
def Mode.code : Mode → BitVec 2
  | .idle => 0b00
  | .read => 0b01
  | .write => 0b10

/-- A fault's code (60_exceptions.md R160). -/
def FaultCause.code : FaultCause → BitVec 3
  | .illegalCmd => 0b001
  | .notOpen => 0b010
  | .alreadyOpen => 0b011
  | .wrongDir => 0b100
  | .ioError => 0b101

/-- FCODE's code; 000 where no fault is recorded (R32). -/
def fcodeBits : Option FaultCause → BitVec 3
  | none => 0b000
  | some c => c.code

/-- `zext_8(FCODE)`, the DATA of a FAULT response (30_encoding.md R79). -/
def fcodeByte (f : Option FaultCause) : Byte := (fcodeBits f).setWidth 8

/-- ST's code (30_encoding.md R77). -/
def St.code : St → BitVec 2
  | .ok => 0b00
  | .eos => 0b01
  | .openFail => 0b10
  | .fault => 0b11

/-- The 12-bit response word: ST, RSV = 0, FLAG, DATA (30_encoding.md R76). -/
def Response.word (r : Response) : RspWord := r.st.code ++ 0#1 ++ BitVec.ofBool r.flag ++ r.data

/-- The STATUS byte {0, FCODE, 0, PV, MODE} of those registers (10_state.md R34, 42_status.md R135). -/
def statusOf (mode : Mode) (pv : Bool) (fcode : Option FaultCause) : Byte :=
  0#1 ++ fcodeBits fcode ++ 0#1 ++ BitVec.ofBool pv ++ mode.code

/-- The STATUS view of a state (R34). -/
def statusByte (s : State) : Byte := statusOf s.mode s.pv s.fcode

end Sys2Proof.Machine
end

