-- ==== Sys2Proof/Machine/Ops.lean ====
section
/-! DEFINITION. The primitives of 00_scope.md R10 over the state: the byte side's answers, the four
byte-side requests, `respond`, `raise Fault`, the prologue of 40_stream.md, the illegal word of 30_encoding.md R81, and
reset. -/

namespace Sys2Proof.Machine

/-- The next answer of a script; `free` where it has none (log 1). -/
def Script.answer {α : Type} (q : Script α) (free : α) : α :=
  match q.answers, q.after with
  | a :: _, _ => a
  | [], some a => a
  | [], none => free

/-- The script after one answer is taken. -/
def Script.rest {α : Type} (q : Script α) : Script α := { q with answers := q.answers.tail }

/-- The answer to BREAD in the deterministic environment: `Byte(S[k])` while k < len(S), else EOD (20_memory.md R57). -/
def ListSide.srcAnswer (l : ListSide) : SrcAnswer :=
  match l.source[l.cursor]? with
  | some b => .byte b
  | none => .eod

/-- BOPEN in the deterministic environment (R57): a read session reads the stream attached, from its start, and a write
session's stream is empty at open. The host's next attachment follows (log 19). -/
def ListSide.opened (l : ListSide) : Direction → ListSide
  | .read => { l with source := l.attached, cursor := 0, attached := l.later.headD l.attached, later := l.later.tail }
  | .write => { l with sink := [] }

/-- BREAD in the deterministic environment (R57): it moves `k` on while k < len(S). -/
def ListSide.read (l : ListSide) : ListSide :=
  { l with cursor := if l.cursor < l.source.length then l.cursor + 1 else l.cursor }

/-- BWRITE in the deterministic environment (R57): it appends to `W`. -/
def ListSide.wrote (l : ListSide) (b : Byte) : ListSide := { l with sink := l.sink ++ [b] }

/-- The byte side after a BOPEN (R53, R57). -/
def ByteSide.opened (e : ByteSide) (dir : Direction) : ByteSide :=
  match e with
  | .scripted q => .scripted { q with opens := q.opens.rest, draws := q.draws + 1 }
  | .lists l => .lists (l.opened dir)

/-- The byte side after a BREAD (R54, R57). -/
def ByteSide.read (e : ByteSide) : ByteSide :=
  match e with
  | .scripted q => .scripted { q with reads := q.reads.rest, draws := q.draws + 1 }
  | .lists l => .lists l.read

/-- The byte side after a BWRITE (R55, R57). -/
def ByteSide.wrote (e : ByteSide) (b : Byte) : ByteSide :=
  match e with
  | .scripted q => .scripted { q with writes := q.writes.rest, draws := q.draws + 1 }
  | .lists l => .lists (l.wrote b)

/-- The byte side after a BCLOSE (R56, R57). -/
def ByteSide.closed (e : ByteSide) : ByteSide :=
  match e with
  | .scripted q => .scripted { q with closes := q.closes.rest, draws := q.draws + 1 }
  | .lists l => .lists l

/-- OpenOutcome, the answer the next BOPEN gets (20_memory.md R53, R57). -/
def State.openAnswer (s : State) : OpenOutcome :=
  match s.env with
  | .scripted q => q.opens.answer (Config.freeOpenOutcome q.draws)
  | .lists _ => .ok

/-- SrcAnswer, the answer the next BREAD gets (20_memory.md R54, R57). -/
def State.srcAnswer (s : State) : SrcAnswer :=
  match s.env with
  | .scripted q => q.reads.answer (Config.freeSrcAnswer q.draws)
  | .lists l => l.srcAnswer

/-- SnkAnswer, the answer the next BWRITE gets (20_memory.md R55, R57). -/
def State.snkAnswer (s : State) : SnkAnswer :=
  match s.env with
  | .scripted q => q.writes.answer (Config.freeSnkAnswer q.draws)
  | .lists _ => .ok

/-- CloseAnswer, the answer the next BCLOSE gets (20_memory.md R56, R57). -/
def State.closeAnswer (s : State) : CloseAnswer :=
  match s.env with
  | .scripted q => q.closes.answer (Config.freeCloseAnswer q.draws)
  | .lists _ => .ok

/-- `ByteOpen(dir)` issued and answered by `s.openAnswer` (R10, R53). -/
def State.bopen (s : State) (dir : Direction) : State :=
  { s with env := s.env.opened dir, trace := s.trace ++ [.bopen dir s.openAnswer] }

/-- `SrcRead()` issued and answered by `s.srcAnswer` (R10, R54). -/
def State.bread (s : State) : State := { s with env := s.env.read, trace := s.trace ++ [.bread s.srcAnswer] }

/-- `SnkWrite(b)` issued and answered by `s.snkAnswer` (R10, R55). -/
def State.bwrite (s : State) (b : Byte) : State :=
  { s with env := s.env.wrote b, trace := s.trace ++ [.bwrite b s.snkAnswer] }

/-- `ByteClose()` issued and answered by `s.closeAnswer` (R10, R56). -/
def State.bclose (s : State) : State := { s with env := s.env.closed, trace := s.trace ++ [.bclose s.closeAnswer] }

/-- `respond(ST, FLAG, DATA)` (R10, 30_encoding.md R76). -/
def State.respond (s : State) (st : St) (flag : Bool) (data : Byte) : State :=
  { s with trace := s.trace ++ [.rsp { st := st, flag := flag, data := data }] }

/-- `raise Fault(c)` (60_exceptions.md R163): taking a fault. FCODE takes the code, the response is
(FAULT, 0, zext_8(c)), and no other register is written (R165). -/
def State.raiseFault (s : State) (c : FaultCause) : State :=
  { s with fcode := some c }.respond .fault false (fcodeByte (some c))

/-- What a faulted block answers: (FAULT, 0, zext_8(FCODE)), nothing written (60_exceptions.md R164). -/
def State.answerFaulted (s : State) : State := s.respond .fault false (fcodeByte s.fcode)

/-- The prologue of 40_stream.md: `body` where no fault is recorded, the faulted answer otherwise (R162 step 3). -/
def State.prologue (s : State) (body : State) : State :=
  match s.fcode with
  | none => body
  | some _ => s.answerFaulted

/-- An illegal word: ILLEGAL_CMD, or the faulted answer (30_encoding.md R81, 60_exceptions.md R162 step 1). -/
def State.illegalWord (s : State) : State := s.prologue (s.raiseFault .illegalCmd)

/-- Every state register at its reset value, nothing else touched (10_state.md R41, 70_reset_and_hazards.md R185,
R186): the only return from a fault (60_exceptions.md R167). -/
def State.resetRegisters (s : State) : State := { s with mode := .idle, pv := false, pend := 0, fcode := none }

/-- What the RST level holds: the registers at reset while it is asserted (10_state.md R22). -/
def State.underRst (s : State) : State := if s.rst then s.resetRegisters else s

end Sys2Proof.Machine
end

