-- ==== Sys2Proof/Machine/Lut.lean ====
section
/-! DEFINITION. The code lookup table commands LENC and LDEC (41_lut.md). -/

namespace Sys2Proof.Machine

/-- LENC (41_lut.md R120 to R124): FLAG = hit, DATA = the index, or 0 for a miss. -/
def execLenc (byte : Byte) (s : State) : Host.Outcome State Fault Refusal :=
  .next <| s.prologue <|
    match clut.scan byte with
    | some i => s.respond .ok true (zextNibble i)
    | none => s.respond .ok false 0x00

/-- LDEC (41_lut.md R125 to R127): DATA = CLUT[IDX], FLAG marks the escape index. -/
def execLdec (idx : Nibble) (s : State) : Host.Outcome State Fault Refusal :=
  .next <| s.prologue <| s.respond .ok (decide (idx = escIdx)) (clut.entry idx)

end Sys2Proof.Machine
end

