-- ==== Sys2Proof/Machine/Status.lean ====
section
/-! DEFINITION. The status command STAT (42_status.md). -/

namespace Sys2Proof.Machine

/-- STAT (42_status.md R135, R136): no prologue, so a faulted block answers too. -/
def execStat (s : State) : Host.Outcome State Fault Refusal :=
  .next (s.respond .ok false (statusByte s))

end Sys2Proof.Machine
end

