-- ==== Sys2Proof/Machine/Stream.lean ====
section
/-! DEFINITION. The stream commands OPEN, RDN, WRN, CLOSE (40_stream.md). -/

namespace Sys2Proof.Machine

/-- OPEN (40_stream.md R90 to R93). -/
def execOpen (dir : Direction) (s : State) : Host.Outcome State Fault Refusal :=
  .next <| s.prologue <|
    match s.mode with
    | .idle =>
      match s.openAnswer with
      | .fail => (s.bopen dir).respond .openFail false 0x00
      | .ok => { s.bopen dir with mode := modeOf dir, pv := false }.respond .ok false 0x00
    | .read => s.raiseFault .alreadyOpen
    | .write => s.raiseFault .alreadyOpen

/-- RDN (40_stream.md R94 to R100). -/
def execRdn (s : State) : Host.Outcome State Fault Refusal :=
  .next <| s.prologue <|
    match s.mode with
    | .idle => s.raiseFault .notOpen
    | .write => s.raiseFault .wrongDir
    | .read =>
      if s.pv then { s with pv := false }.respond .ok false (zextNibble s.pend)
      else
        match s.srcAnswer with
        | .byte b => { s.bread with pend := lowNibble b, pv := true }.respond .ok false (zextNibble (highNibble b))
        | .eod => s.bread.respond .eos false 0x00
        | .ioerr => s.bread.raiseFault .ioError

/-- WRN (40_stream.md R101 to R107). -/
def execWrn (nib : Nibble) (s : State) : Host.Outcome State Fault Refusal :=
  .next <| s.prologue <|
    match s.mode with
    | .idle => s.raiseFault .notOpen
    | .read => s.raiseFault .wrongDir
    | .write =>
      if s.pv then
        let b := packNibbles s.pend nib
        match s.snkAnswer with
        | .ioerr => (s.bwrite b).raiseFault .ioError
        | .ok => { s.bwrite b with pv := false }.respond .ok true b
      else { s with pend := nib, pv := true }.respond .ok false 0x00

/-- The second half of CLOSE (40_stream.md R108): BCLOSE, and the response with the byte already sent, if one was
(R109, R110, R113, R114). -/
def State.endSession (s : State) (sent : Bool) (b : Byte) : State :=
  match s.closeAnswer with
  | .ioerr => s.bclose.raiseFault .ioError
  | .ok => { s.bclose with mode := .idle, pv := false }.respond .ok sent b

/-- CLOSE (40_stream.md R108 to R115). -/
def execClose (s : State) : Host.Outcome State Fault Refusal :=
  .next <| s.prologue <|
    match s.mode with
    | .idle => s.raiseFault .notOpen
    | .read => s.endSession false 0x00
    | .write =>
      if s.pv then
        let b := packNibbles s.pend padNibble
        match s.snkAnswer with
        | .ioerr => (s.bwrite b).raiseFault .ioError
        | .ok => (s.bwrite b).endSession true b
      else s.endSession false 0x00

end Sys2Proof.Machine
end

