-- ==== Sys2Proof/Machine/Dispatch.lean ====
section
/-! DEFINITION. One arm per command. -/

namespace Sys2Proof.Machine

def exec (i : Instr) (s : State) : Host.Outcome State Fault Refusal :=
  match i with
  | .openSession dir => Sys2Proof.Machine.execOpen dir s
  | .rdn => Sys2Proof.Machine.execRdn s
  | .wrn nib => Sys2Proof.Machine.execWrn nib s
  | .close => Sys2Proof.Machine.execClose s
  | .lenc byte => Sys2Proof.Machine.execLenc byte s
  | .ldec idx => Sys2Proof.Machine.execLdec idx s
  | .stat => Sys2Proof.Machine.execStat s

end Sys2Proof.Machine
end

