-- ==== Sys2Proof/Machine/Step.lean ====
section
/-! DEFINITION. One step: the block takes the next thing the host does at its inputs (10_state.md R20 to R22, R25). -/

namespace Sys2Proof.Machine

/-- The block accepts a command word with RST released: decode it and execute it, or take the illegal word
(60_exceptions.md R162). -/
def acceptWord (w : CmdWord) (s : State) : Host.Outcome State Fault Refusal :=
  match decode w with
  | .legal i => exec i s
  | .illegal _ => .next s.illegalWord

/-- One step. With nothing at the inputs the block waits (log 3). While RST is asserted a word is ignored and the
registers are held at reset (10_state.md R22, log 4). -/
def step (s : State) : Host.Outcome State Fault Refusal :=
  match s.input with
  | [] => .next s.underRst
  | .rst level :: rest => .next { { s with rst := s.rst || level, input := rest }.underRst with rst := level }
  | .cmd w :: rest =>
    if s.rst then .next { s.underRst with input := rest } else acceptWord w { s with input := rest }

/-- `s` with a word, given as the opcode table numbers it, at the head of the host's inputs and RST released, so that the
next step runs it (log 3). -/
def State.withFetchWord (s : State) (nbits w : Nat) : State :=
  { s with rst := false, input := .cmd (tableWord nbits w) :: s.input }

end Sys2Proof.Machine
end

