-- ==== Sys2Proof/WellFormed.lean ====
section
/-! DEFINITION. Which field triples are a legal command (30_encoding.md R71 to R73), and which assembler commands
have their operands in range (R83). A value of `Instr` needs no check: its operand types are the fields' widths. -/

namespace Sys2Proof

/-- OP selects an operation: 0x1 to 0x7 (R71, R75). -/
def CmdFields.opLegal (f : CmdFields) : Bool := decide (1 ≤ f.op.toNat ∧ f.op.toNat ≤ 7)

/-- RSV is 0000 (R72). -/
def CmdFields.rsvLegal (f : CmdFields) : Bool := decide (f.rsv.toNat = 0)

/-- ARG is one of the operation's legal values (R73, its last column). -/
def CmdFields.argLegal (f : CmdFields) : Bool :=
  match f.op.toNat with
  | 1 => decide (f.arg.toNat ≤ 0x01)
  | 2 => decide (f.arg.toNat = 0x00)
  | 3 => decide (f.arg.toNat ≤ 0x0F)
  | 4 => decide (f.arg.toNat = 0x00)
  | 5 => true
  | 6 => decide (f.arg.toNat ≤ 0x0F)
  | 7 => decide (f.arg.toNat = 0x00)
  | _ => false

/-- The fields are a command's (R71 to R73). -/
def CmdFields.wellFormed (f : CmdFields) : Bool := f.opLegal && f.rsvLegal && f.argLegal

/-- A printable ASCII character, the operand of `LENC 'c'` (R83): 0x20 to 0x7E. -/
def printableAscii (c : Char) : Bool := decide (0x20 ≤ c.toNat ∧ c.toNat ≤ 0x7E)

/-- The operand of an assembler command is in the range R83 (and, for the pseudo-instructions, R84) gives it. -/
def AsmCmd.wellFormed : AsmCmd → Bool
  | .openR => true
  | .openW => true
  | .rdn => true
  | .wrn n => decide (n ≤ 15)
  | .close => true
  | .lenc b => decide (b ≤ 255)
  | .lencChar c => printableAscii c
  | .ldec i => decide (i ≤ 15)
  | .stat => true
  | .wrb b => decide (b ≤ 255)
  | .esc b => decide (b ≤ 255)

end Sys2Proof
end

