-- ==== Sys2Proof/Machine/Assembler.lean ====
section
/-! DEFINITION. The assembler: the command words of 30_encoding.md R83, the expansion of the pseudo-instructions (R84),
and the reading of a line of text (R83; its spaces are log 16). -/

namespace Sys2Proof.Machine

/-- `WRN #n`. -/
def wrnOf (n : Nat) : Instr := .wrn (BitVec.ofNat 4 n)

/-- The commands an assembler command stands for, in order (R83, R84). -/
def expandAsm : AsmCmd → List Instr
  | .openR => [.openSession .read]
  | .openW => [.openSession .write]
  | .rdn => [.rdn]
  | .wrn n => [wrnOf n]
  | .close => [.close]
  | .lenc b => [.lenc (BitVec.ofNat 8 b)]
  | .lencChar c => [.lenc (BitVec.ofNat 8 c.toNat)]
  | .ldec i => [.ldec (BitVec.ofNat 4 i)]
  | .stat => [.stat]
  | .wrb b => [wrnOf (b / 16), wrnOf (b % 16)]
  | .esc b => [wrnOf 0, wrnOf (b / 16), wrnOf (b % 16)]

/-- The command words of an assembler command whose operand is in range. -/
def assemble (a : AsmCmd) : Option (List CmdWord) :=
  if a.wellFormed then some ((expandAsm a).map encode) else none

/-- The value of a digit in base 10 or 16. -/
def digitValue? (base : Nat) (c : Char) : Option Nat :=
  let v :=
    if '0'.toNat ≤ c.toNat ∧ c.toNat ≤ '9'.toNat then c.toNat - '0'.toNat
    else if 'a'.toNat ≤ c.toNat ∧ c.toNat ≤ 'f'.toNat then c.toNat - 'a'.toNat + 10
    else if 'A'.toNat ≤ c.toNat ∧ c.toNat ≤ 'F'.toNat then c.toNat - 'A'.toNat + 10
    else base
  if v < base then some v else none

/-- The number of a run of digits read after the digits of `acc`. -/
def digits? (base : Nat) (acc : Nat) : List Char → Option Nat
  | [] => some acc
  | c :: cs => (digitValue? base c).bind fun v => digits? base (acc * base + v) cs

/-- A number: decimal, or hexadecimal with `0x` (R83). -/
def number? : List Char → Option Nat
  | [] => none
  | '0' :: 'x' :: c :: cs => digits? 16 0 (c :: cs)
  | c :: cs => digits? 10 0 (c :: cs)

/-- `#` and a number (R83). -/
def immediate? : List Char → Option Nat
  | '#' :: cs => number? cs
  | _ => none

/-- The text up to its first space, and the text after it if there is one. -/
def splitSpace : List Char → List Char × Option (List Char)
  | [] => ([], none)
  | c :: cs => if c = ' ' then ([], some cs) else let (w, rest) := splitSpace cs; (c :: w, rest)

/-- A command that takes no operand (R83, first column). -/
def parseBare (mnemonic : List Char) : Option AsmCmd :=
  if mnemonic = ['R', 'D', 'N'] then some .rdn
  else if mnemonic = ['C', 'L', 'O', 'S', 'E'] then some .close
  else if mnemonic = ['S', 'T', 'A', 'T'] then some .stat
  else none

/-- A command with its operand (R83, R84). -/
def parseOperand (mnemonic operand : List Char) : Option AsmCmd :=
  if mnemonic = ['O', 'P', 'E', 'N'] then
    if operand = ['R'] then some .openR else if operand = ['W'] then some .openW else none
  else if mnemonic = ['W', 'R', 'N'] then (immediate? operand).map .wrn
  else if mnemonic = ['L', 'E', 'N', 'C'] then
    match operand with
    | ['\'', c, '\''] => some (.lencChar c)
    | _ => (immediate? operand).map .lenc
  else if mnemonic = ['L', 'D', 'E', 'C'] then (immediate? operand).map .ldec
  else if mnemonic = ['W', 'R', 'B'] then (immediate? operand).map .wrb
  else if mnemonic = ['E', 'S', 'C'] then (immediate? operand).map .esc
  else none

/-- A line: a mnemonic, or a mnemonic, one space and an operand (R83, log 16). -/
def parseLine (line : List Char) : Option AsmCmd :=
  match splitSpace line with
  | (mnemonic, none) => parseBare mnemonic
  | (mnemonic, some operand) => parseOperand mnemonic operand

end Sys2Proof.Machine
end

