-- ==== Sys2Proof/Machine/Views.lean ====
section
/-! DEFINITION. What can be read off a run's trace: responses, byte-side requests, the bytes sent (20_memory.md R65), and
running a list of commands one after another. -/

namespace Sys2Proof.Machine

/-- The response an event is, if it is one. -/
def Event.response? : Event → Option Response
  | .rsp r => some r
  | .bopen _ _ => none
  | .bread _ => none
  | .bwrite _ _ => none
  | .bclose _ => none

/-- The event is a byte-side transaction (10_state.md R21), not a response. -/
def Event.isRequest (e : Event) : Bool := e.response?.isNone

/-- The payload of a BWRITE that the byte side answered `ok`: "the byte is appended to the stream" (20_memory.md R55). -/
def Event.sentByte? : Event → Option Byte
  | .bwrite b .ok => some b
  | .bwrite _ .ioerr => none
  | .bopen _ _ => none
  | .bread _ => none
  | .bclose _ => none
  | .rsp _ => none

/-- The byte a BREAD was answered with, if one was (20_memory.md R54). -/
def Event.readByte? : Event → Option Byte
  | .bread (.byte b) => some b
  | .bread .eod => none
  | .bread .ioerr => none
  | .bopen _ _ => none
  | .bwrite _ _ => none
  | .bclose _ => none
  | .rsp _ => none

/-- The responses of a run, in order. -/
def State.responses (s : State) : List Response := s.trace.filterMap Event.response?

/-- The bytes a run has appended to the byte side's streams, over all its sessions, in order (R65); one session's stream in
the deterministic environment of R57 is `ListSide.sink`. -/
def State.sentBytes (s : State) : List Byte := s.trace.filterMap Event.sentByte?

/-- The events of `s'` that `s` did not have, where `s'` comes from `s`. -/
def State.eventsSince (s s' : State) : List Event := s'.trace.drop s.trace.length

/-- The deterministic byte side of 20_memory.md R57 before any session: the next read session's stream is `first`, those
after it `later`. -/
def ByteSide.ofFiles (first : List Byte) (later : List (List Byte)) : ByteSide :=
  .lists { attached := first, later := later, source := [], cursor := 0, sink := [] }

/-- The deterministic byte side of R57 with `file` attached for every read session. -/
def ByteSide.ofFile (file : List Byte) : ByteSide := .ofFiles file []

/-- The commands `is`, each executed after the one before it (20_memory.md R63, R65). -/
def execAll : List Instr → State → Host.Outcome State Fault Refusal
  | [], s => .next s
  | i :: is, s =>
    match exec i s with
    | .next s' => execAll is s'
    | .fault r => .fault r
    | .refused r => .refused r

end Sys2Proof.Machine
end

