-- ==== Sys2Proof/Machine/Codec.lean ====
section
/-! DEFINITION. The reference client (45_reference_codec.md): compress and decompress as host programs that drive `step` with
command words, and the nibble-packed format they write and read, as functions on lists. No rule of the block depends
on this file (log 15). -/

namespace Sys2Proof.Machine

/-- How a host program ends (R140, R144, R148). `outOfFuel` is the model's own: the program is still running. -/
inductive CodecEnd where
  | ok
  | failedOpen
  | failed
  | outOfFuel
  deriving DecidableEq, Repr

/-- A host program's end, the raw bytes it put out (HostOut), and the machine it leaves. -/
structure CodecRun where
  ending : CodecEnd
  out : List Byte
  state : State
  deriving DecidableEq, Repr

/-- The host offers the word of `i` and waits for the response: the last event of that step. `none` where none comes. -/
def sendCommand (i : Instr) (s : State) : Option (Response × State) :=
  match step { s with input := .cmd (encode i) :: s.input } with
  | .next s' => ((s.eventsSince s').getLast?.bind Event.response?).map fun r => (r, s')
  | .fault _ => none
  | .refused _ => none

/-- `cmd(X)`: a FAULT response ends the program (R148), as does a missing one; the machine it leaves is the error. -/
def hostCmd (i : Instr) (s : State) : Except State (Response × State) :=
  match sendCommand i s with
  | none => .error s
  | some (r, s') => if r.st = .fault then .error s' else .ok (r, s')

/-- One WRN per nibble. -/
def writeNibbles : List Nibble → State → Except State State
  | [], s => .ok s
  | n :: ns, s =>
    match hostCmd (.wrn n) s with
    | .error e => .error e
    | .ok (_, s') => writeNibbles ns s'

/-- The nibbles compress writes for an input byte after LENC's response (R141, R142). -/
def groupAfter (r : Response) (x : Byte) : List Nibble :=
  if r.flag then [lowNibble r.data] else [escIdx, highNibble x, lowNibble x]

/-- The loop of compress (R140). -/
def compressBytes : List Byte → State → Except State State
  | [], s => .ok s
  | x :: xs, s =>
    match hostCmd (.lenc x) s with
    | .error e => .error e
    | .ok (r, s₁) =>
      match writeNibbles (groupAfter r x) s₁ with
      | .error e => .error e
      | .ok s₂ => compressBytes xs s₂

/-- The compress program on a raw input (R140); it puts out no raw bytes. -/
def compress (raw : List Byte) (s : State) : CodecRun :=
  match hostCmd (.openSession .write) s with
  | .error e => ⟨.failed, [], e⟩
  | .ok (r, s₁) =>
    if r.st = .openFail then ⟨.failedOpen, [], s₁⟩
    else
      match compressBytes raw s₁ with
      | .error e => ⟨.failed, [], e⟩
      | .ok s₂ =>
        match hostCmd .close s₂ with
        | .error e => ⟨.failed, [], e⟩
        | .ok (_, s₃) => ⟨.ok, [], s₃⟩

/-- ExpectEscapeBytes (R147, R148): two nibbles, or `none` at end of stream. -/
def readEscaped (s : State) : Except State (Option Byte × State) :=
  match hostCmd .rdn s with
  | .error e => .error e
  | .ok (r₁, s₁) =>
    if r₁.st = .eos then .ok (none, s₁)
    else
      match hostCmd .rdn s₁ with
      | .error e => .error e
      | .ok (r₂, s₂) =>
        if r₂.st = .eos then .ok (none, s₂)
        else .ok (some (packNibbles (lowNibble r₁.data) (lowNibble r₂.data)), s₂)

/-- The loop of decompress (R144), at most `fuel` times round: ExpectCode, then a direct code (R146), an escape (R147)
or the end (R145). -/
def decompressLoop : Nat → List Byte → State → CodecRun
  | 0, out, s => ⟨.outOfFuel, out, s⟩
  | fuel + 1, out, s =>
    match hostCmd .rdn s with
    | .error e => ⟨.failed, out, e⟩
    | .ok (r, s₁) =>
      if r.st = .eos then ⟨.ok, out, s₁⟩
      else if r.data ≠ 0 then
        match hostCmd (.ldec (lowNibble r.data)) s₁ with
        | .error e => ⟨.failed, out, e⟩
        | .ok (c, s₂) => decompressLoop fuel (out ++ [c.data]) s₂
      else
        match readEscaped s₁ with
        | .error e => ⟨.failed, out, e⟩
        | .ok (none, s₂) => ⟨.ok, out, s₂⟩
        | .ok (some b, s₂) => decompressLoop fuel (out ++ [b]) s₂

/-- The decompress program (R144). -/
def decompress (fuel : Nat) (s : State) : CodecRun :=
  match hostCmd (.openSession .read) s with
  | .error e => ⟨.failed, [], e⟩
  | .ok (r, s₁) =>
    if r.st = .openFail then ⟨.failedOpen, [], s₁⟩
    else
      match decompressLoop fuel [] s₁ with
      | ⟨.ok, out, s₂⟩ =>
        match hostCmd .close s₂ with
        | .error e => ⟨.failed, out, e⟩
        | .ok (_, s₃) => ⟨.ok, out, s₃⟩
      | run => run

/-- The code group of a byte (R141, R142). -/
def codeGroup (x : Byte) : List Nibble :=
  match clut.scan x with
  | some i => [i]
  | none => [escIdx, highNibble x, lowNibble x]

/-- The nibbles of a raw input: its bytes' groups, concatenated (R151). -/
def codeNibbles (raw : List Byte) : List Nibble := raw.flatMap codeGroup

/-- The nibble-packed format (R149): two nibbles per byte, high nibble first, an odd count padded. -/
def packFormat : List Nibble → List Byte
  | [] => []
  | [n] => [packNibbles n padNibble]
  | hi :: lo :: rest => packNibbles hi lo :: packFormat rest

/-- The nibbles of a packed file, in stream order (20_memory.md R58). -/
def unpackFormat (file : List Byte) : List Nibble := file.flatMap fun b => [highNibble b, lowNibble b]

/-- What decompress emits for a nibble stream (R145 to R147): direct codes, escapes, and nothing for a truncated escape. -/
def parseNibbles : List Nibble → List Byte
  | [] => []
  | n :: rest =>
    if n ≠ escIdx then clut.entry n :: parseNibbles rest
    else
      match rest with
      | hi :: lo :: rest' => packNibbles hi lo :: parseNibbles rest'
      | _ => []

end Sys2Proof.Machine
end

