-- ==== Sys2Proof/Machine/Ports.lean ====
section
/-! DEFINITION. The payloads of the byte-side channels as bits (10_state.md R21). -/

namespace Sys2Proof.Machine

/-- BOPEN's request payload `dir[0]`. -/
def dirBit : Direction → BitVec 1
  | .read => 0
  | .write => 1

/-- BOPEN's answer payload `ok[0]`. -/
def openOkBit : OpenOutcome → BitVec 1
  | .ok => 1
  | .fail => 0

/-- BREAD's answer payload `kind[1:0]`. -/
def srcKind : SrcAnswer → BitVec 2
  | .byte _ => 0b00
  | .eod => 0b01
  | .ioerr => 0b10

/-- BREAD's answer payload `byte[7:0]`, "valid when kind = 00". -/
def srcByte? : SrcAnswer → Option Byte
  | .byte b => some b
  | .eod => none
  | .ioerr => none

/-- BWRITE's answer payload `err[0]`. -/
def snkErrBit : SnkAnswer → BitVec 1
  | .ok => 0
  | .ioerr => 1

/-- BCLOSE's answer payload `err[0]`. -/
def closeErrBit : CloseAnswer → BitVec 1
  | .ok => 0
  | .ioerr => 1

/-- BOPEN's answer read from its bit. -/
def openOutcomeOfBit (okBit : BitVec 1) : OpenOutcome := if okBit = 1 then .ok else .fail

/-- BREAD's answer read from its bits; kind 11 is never sent, and `byte` is read only with kind 00 (log 17). -/
def srcAnswerOfBits (kind : BitVec 2) (byte : Byte) : Option SrcAnswer :=
  match kind.toNat with
  | 0 => some (.byte byte)
  | 1 => some .eod
  | 2 => some .ioerr
  | _ => none

/-- BWRITE's answer read from its bit. -/
def snkAnswerOfBit (err : BitVec 1) : SnkAnswer := if err = 1 then .ioerr else .ok

/-- BCLOSE's answer read from its bit. -/
def closeAnswerOfBit (err : BitVec 1) : CloseAnswer := if err = 1 then .ioerr else .ok

end Sys2Proof.Machine
end

