-- ==== Sys2Proof/Safety.lean ====
section
/-! DEFINITION. The terms claims use: a command's answer, faulted and ready states, the invariant of a run, states that differ
only in an unobservable PEND. -/

namespace Sys2Proof.Machine

/-- `o` is the next state `t`, reached from `s` by the byte-side requests `reqs` and then the one response `r`
(30_encoding.md R76). -/
def Answers (o : Host.Outcome State Fault Refusal) (s t : State) (reqs : List Event) (r : Response) : Prop :=
  o = .next t ∧ t.trace = s.trace ++ reqs ++ [.rsp r] ∧ ∀ e ∈ reqs, e.isRequest = true

/-- The block is faulted: FCODE is not 000 (10_state.md R33). A run that reaches such a state is not a successful one
(60_exceptions.md R168: "a model treats it as a fault outcome"; log 8). -/
abbrev State.Faulted (s : State) : Prop := s.fcode ≠ none

/-- Where a host program starts and a successful one ends: RST released, not faulted, no session open
(45_reference_codec.md R140, R144; 60_exceptions.md R168). -/
abbrev State.Ready (s : State) : Prop := s.rst = false ∧ s.fcode = none ∧ s.mode = .idle

/-- Every answer to BOPEN, BWRITE and BCLOSE is `ok` (45_reference_codec.md R151), as it is in the deterministic
environment (20_memory.md R57). -/
def State.ByteSideOk (s : State) : Prop :=
  match s.env with
  | .scripted q => q.opens = ⟨[], some .ok⟩ ∧ q.writes = ⟨[], some .ok⟩ ∧ q.closes = ⟨[], some .ok⟩
  | .lists _ => True

/-- The next read session opens, reads the bytes `file` and then EOD for ever, and closes without an error: from scripts that
say so, or in the deterministic environment of 20_memory.md R57 with `file` attached. -/
def State.Serves (s : State) (file : List Byte) : Prop :=
  match s.env with
  | .scripted q => q.opens = ⟨[], some .ok⟩ ∧ q.reads = ⟨file.map .byte, some .eod⟩ ∧ q.closes = ⟨[], some .ok⟩
  | .lists l => l.attached = file

/-- No nibble is pending while no session is open (10_state.md R31), and the registers are at reset while RST is
asserted (R22). -/
abbrev State.Inv (s : State) : Prop :=
  (s.mode = .idle → s.pv = false) ∧ (s.rst = true → s.mode = .idle ∧ s.pv = false ∧ s.pend = 0 ∧ s.fcode = none)

/-- RST is asserted during the step from `s`: its level is already high, or the next input raises it. -/
abbrev State.ResetNow (s : State) : Prop := s.rst = true ∨ s.input.head? = some (.rst true)

/-- The two states differ at most in the value of PEND, and in that only while PV = 0 (10_state.md R29). -/
abbrev State.SameButIdlePend (s t : State) : Prop :=
  { s with pend := 0 } = { t with pend := 0 } ∧ (s.pv = true → s.pend = t.pend)

/-- The answer in an event is IOERR (60_exceptions.md R160, IO_ERROR). -/
def Event.isIoErr : Event → Bool
  | .bread .ioerr => true
  | .bread (.byte _) => false
  | .bread .eod => false
  | .bwrite _ .ioerr => true
  | .bwrite _ .ok => false
  | .bclose .ioerr => true
  | .bclose .ok => false
  | .bopen _ _ => false
  | .rsp _ => false

/-- The responses R104 gives to a run of WRNs that starts aligned: a pair's first answers (OK, 0, 0), its second the byte. -/
def wrnResponses : List Nibble → List Response
  | [] => []
  | [_] => [⟨.ok, false, 0x00⟩]
  | hi :: lo :: rest => ⟨.ok, false, 0x00⟩ :: ⟨.ok, true, hi ++ lo⟩ :: wrnResponses rest

/-- The bytes of the complete pairs of a list of nibbles (R105). -/
def pairBytes : List Nibble → List Byte
  | [] => []
  | [_] => []
  | hi :: lo :: rest => (hi ++ lo) :: pairBytes rest

end Sys2Proof.Machine
end

