-- ==== Sys2Proof/Certificates/Slice0/Obligations.lean ====
section
/-! DEFINITION. The statements for the provers. A next state is written out as the state before it with the fields that
change, so a statement of a result is its frame too; the field `env` changes by the answers taken, no more. Where a rule
is marked [derived: ...] by the spec, the statement's basis is derived and its docstring says so. That commands and levels of
RST reach `step` in the list `input` is the model's choice in every statement over `step` (log 3). -/

open Sys2Proof Sys2Proof.Machine

/-! ## Encoding -/

/-- Decoding the word of any command gives the command back, and a word that decodes to a command is that command's word:
no bit of an encoding is dropped (from 30_encoding.md R70 to R73). -/
def Obligations.DecodeEncodeRoundTrip : Prop :=
  (∀ i : Instr, decode (encode i) = .legal i) ∧ ∀ (w : CmdWord) (i : Instr), decode w = .legal i → encode i = w

/-- Words written out from the opcode table and from R74, one or more per command and one per way of being illegal. -/
def Obligations.SpecWordsDecode : Prop :=
  decode 0b0001_0000_0000_0000#16 = .legal (.openSession .read) ∧
  decode 0b0001_0000_0000_0001#16 = .legal (.openSession .write) ∧
  decode 0b0010_0000_0000_0000#16 = .legal .rdn ∧
  decode 0b0011_0000_0000_1001#16 = .legal (.wrn 0x9) ∧
  decode 0b0100_0000_0000_0000#16 = .legal .close ∧
  decode 0b0101_0000_0110_0101#16 = .legal (.lenc 0x65) ∧
  decode 0b0110_0000_0000_0111#16 = .legal (.ldec 0x7) ∧
  decode 0b0111_0000_0000_0000#16 = .legal .stat ∧
  decode 0b0000_0000_0000_0000#16 = .illegal .reservedOp ∧
  decode 0b0101_1111_1111_1111#16 = .illegal .reservedBits ∧
  decode 0b0011_0000_0001_0000#16 = .illegal .argument

/-- The word of each command as a number: the last column of 30_encoding.md R83's table, both ways. -/
def Obligations.DecodeByWordNumber : Prop :=
  ∀ (w : CmdWord) (i : Instr), decode w = .legal i ↔
    match i with
    | .openSession .read => w.toNat = 0x1000
    | .openSession .write => w.toNat = 0x1001
    | .rdn => w.toNat = 0x2000
    | .wrn nib => w.toNat = 0x3000 + nib.toNat
    | .close => w.toNat = 0x4000
    | .lenc byte => w.toNat = 0x5000 + byte.toNat
    | .ldec idx => w.toNat = 0x6000 + idx.toNat
    | .stat => w.toNat = 0x7000

/-- Exactly 293 words decode to a command. The spec's own inference: R74 "[derived: from rules R70 to R73]". -/
def Obligations.LegalWordsAre293 : Prop :=
  ∃ words : List CmdWord, words.Nodup ∧ words.length = 293 ∧ ∀ w, w ∈ words ↔ ∃ i, decode w = .legal i

/-- R81: the illegal words, and what one does: ILLEGAL_CMD where no fault is recorded, else the FAULT answer; no other
effect. -/
def Obligations.IllegalWordsFault : Prop :=
  (∀ w : CmdWord, (∃ why, decode w = .illegal why) ↔
    let op := w.toNat / 4096
    let rsv := w.toNat / 256 % 16
    let arg := w.toNat % 256
    (op = 0 ∨ 8 ≤ op) ∨ rsv ≠ 0 ∨ (op = 1 ∧ arg ≠ 0x00 ∧ arg ≠ 0x01) ∨ ((op = 2 ∨ op = 4 ∨ op = 7) ∧ arg ≠ 0x00) ∨
      ((op = 3 ∨ op = 6) ∧ arg / 16 ≠ 0)) ∧
  ∀ (w : CmdWord) (why : Illegal) (s : State), decode w = .illegal why →
    (s.fcode = none → acceptWord w s =
      .next { s with fcode := some .illegalCmd, trace := s.trace ++ [.rsp ⟨.fault, false, 0x01⟩] }) ∧
    (∀ c, s.fcode = some c → acceptWord w s =
      .next { s with trace := s.trace ++ [.rsp ⟨.fault, false, c.code.setWidth 8⟩] })

/-- R84: what WRB and ESC expand to, and that each command of an expansion is a step of its own with its own response. -/
def Obligations.PseudoInstructionsExpand : Prop :=
  ∀ b, b ≤ 255 →
    expandAsm (.wrb b) = [.wrn (BitVec.ofNat 4 (b >>> 4)), .wrn (BitVec.ofNat 4 (b &&& 0xF))] ∧
    expandAsm (.esc b) = [.wrn 0, .wrn (BitVec.ofNat 4 (b >>> 4)), .wrn (BitVec.ofNat 4 (b &&& 0xF))] ∧
    ∀ s : State, ∃ t u,
      execAll (expandAsm (.wrb b)) s = .next t ∧ t.responses.length = s.responses.length + 2 ∧
      execAll (expandAsm (.esc b)) s = .next u ∧ u.responses.length = s.responses.length + 3

/-! ## Responses -/

/-- R76: an accepted word, legal or not, gets exactly one response, after its byte-side transactions; the fields of the
response word. -/
def Obligations.OneResponsePerCommand : Prop :=
  (∀ (w : CmdWord) (s : State), ∃ t reqs r, Answers (acceptWord w s) s t reqs r) ∧
  ∀ r : Response, r.word.extractLsb' 10 2 = r.st.code ∧ r.word.getLsbD 9 = false ∧ r.word.getLsbD 8 = r.flag ∧
    r.word.extractLsb' 0 8 = r.data

/-- R77: ST's codes, and which outcome each ST reports. -/
def Obligations.ResponseStatusMeaning : Prop :=
  (St.code .ok = 0b00 ∧ St.code .eos = 0b01 ∧ St.code .openFail = 0b10 ∧ St.code .fault = 0b11) ∧
  ∀ (w : CmdWord) (s : State), ∃ t reqs r, Answers (acceptWord w s) s t reqs r ∧
    (r.st = .eos ↔
      decode w = .legal .rdn ∧ s.fcode = none ∧ s.mode = .read ∧ s.pv = false ∧ s.srcAnswer = .eod) ∧
    (r.st = .openFail ↔
      (∃ dir, decode w = .legal (.openSession dir)) ∧ s.fcode = none ∧ s.mode = .idle ∧ s.openAnswer = .fail) ∧
    (r.st = .fault ↔ (s.fcode ≠ none ∧ decode w ≠ .legal .stat) ∨ (s.fcode = none ∧ t.fcode ≠ none))

/-- R79: a FAULT response carries FCODE as it stands after the command, the older code when the block was already
faulted. -/
def Obligations.FaultResponseCarriesFcode : Prop :=
  ∀ (w : CmdWord) (s : State), ∃ t reqs r, Answers (acceptWord w s) s t reqs r ∧
    (r.st = .fault → r.flag = false ∧ t.fcode ≠ none ∧ r.data = (fcodeBits t.fcode).setWidth 8) ∧
    (s.fcode ≠ none → t.fcode = s.fcode)

/-! ## Reset and the inputs -/

/-- R41, R186: the registers after reset, and that asserting RST puts them there without a byte-side request: the byte side
and what has gone out are left (that RST's level is an entry of `input` is the model's choice, log 3). PEND's reset value
is not observable: with any other the first word accepted gives the same events, and the same PEND where one is then
pending. -/
def Obligations.ResetRegisterValues : Prop :=
  (State.reset.mode = .idle ∧ State.reset.pv = false ∧ State.reset.pend = 0 ∧ State.reset.fcode = none) ∧
  (∀ (s : State) (rest : List HostInput), s.input = .rst true :: rest →
    step s = .next { mode := .idle, pv := false, pend := 0, fcode := none, rst := true, input := rest, env := s.env,
                     trace := s.trace }) ∧
  ∀ (w : CmdWord) (p : Nibble), ∃ t u, acceptWord w State.reset = .next t ∧
    acceptWord w { State.reset with pend := p } = .next u ∧ u.trace = t.trace ∧ (t.pv = true → u.pend = t.pend)

/-- R22: while RST is asserted no word is executed or answered, no request is made, and the registers stay at reset,
whatever the next input is. RESET_KIND has no part in it (log 5). -/
def Obligations.RstHoldsBlock : Prop :=
  ∀ s : State, s.rst = true → ∃ t, step s = .next t ∧ t.mode = .idle ∧ t.pv = false ∧ t.pend = 0 ∧ t.fcode = none ∧
    t.env = s.env ∧ t.trace = s.trace

/-- R185: after RST is released the next command accepted is the first one executed, from the reset registers. That RST's
level and the commands stand in a list of inputs is the model's choice (log 3). -/
def Obligations.FirstCommandAfterReset : Prop :=
  ∀ (s : State) (w : CmdWord) (rest : List HostInput), s.input = .rst true :: .rst false :: .cmd w :: rest →
    Sys2Proof.core.run 3 s =
      acceptWord w { s with mode := .idle, pv := false, pend := 0, fcode := none, rst := false, input := rest }

/-- A step runs the decoded command: with RST released and a word of the command next at the inputs, step is exec of it at the
state without that word; a word that decodes to none takes the illegal word's effect. Nothing is added around exec (the
block has no program counter, R25). That commands wait in a list of inputs is the model's choice (log 3). -/
def Obligations.StepRunsDecodedCommand : Prop :=
  ∀ (s : State) (w : CmdWord) (rest : List HostInput), s.rst = false → s.input = .cmd w :: rest →
    (∀ i, decode w = .legal i → step s = exec i { s with input := rest }) ∧
    (∀ why, decode w = .illegal why → step s = .next { s with input := rest }.illegalWord)

/-- No step stops: in every state, whatever the inputs and the answers, there is a next state (the block's faults are next
states, log 8). -/
def Obligations.StepAlwaysAnswers : Prop :=
  ∀ s : State, ∃ t, step s = .next t

/-! ## OPEN -/

/-- R92: the byte side answers ok. -/
def Obligations.OpenStartsSession : Prop :=
  ∀ (dir : Direction) (s : State), s.fcode = none → s.mode = .idle → s.openAnswer = .ok →
    exec (.openSession dir) s = .next { s with
      mode := (match dir with | .read => .read | .write => .write),
      pv := false,
      env := (s.bopen dir).env,
      trace := s.trace ++ [.bopen dir .ok, .rsp ⟨.ok, false, 0x00⟩] }

/-- R91: the byte side answers fail; no register is written, and a second OPEN may succeed. -/
def Obligations.FailedOpenWritesNoState : Prop :=
  ∀ (dir : Direction) (s : State), s.fcode = none → s.mode = .idle → s.openAnswer = .fail →
    ∃ t, t = { s with
        env := (s.bopen dir).env,
        trace := s.trace ++ [.bopen dir .fail, .rsp ⟨.openFail, false, 0x00⟩] } ∧
      exec (.openSession dir) s = .next t ∧
      ∀ dir', t.openAnswer = .ok → ∃ u, exec (.openSession dir') t = .next u ∧ u.mode = modeOf dir' ∧ u.fcode = none

/-- R93: OPEN in an open session raises ALREADY_OPEN and issues no BOPEN. -/
def Obligations.OpenWhileOpenFaults : Prop :=
  ∀ (dir : Direction) (s : State), s.fcode = none → s.mode ≠ .idle →
    exec (.openSession dir) s =
      .next { s with fcode := some .alreadyOpen, trace := s.trace ++ [.rsp ⟨.fault, false, 0x03⟩] }

/-! ## RDN -/

/-- R95: the pending nibble is returned without a byte-side request, and this is the case after every RDN that read a
byte. -/
def Obligations.RdnReturnsPending : Prop :=
  (∀ s : State, s.fcode = none → s.mode = .read → s.pv = true →
    exec .rdn s = .next { s with pv := false, trace := s.trace ++ [.rsp ⟨.ok, false, s.pend.setWidth 8⟩] }) ∧
  ∀ (s : State) (b : Byte), s.fcode = none → s.mode = .read → s.pv = false → s.srcAnswer = .byte b →
    ∃ t u, exec .rdn s = .next t ∧ t.pv = true ∧ exec .rdn t = .next u ∧ u.pv = false ∧
      u.trace = t.trace ++ [.rsp ⟨.ok, false, (b.extractLsb' 0 4).setWidth 8⟩]

/-- R96: a byte read is split, high nibble first. -/
def Obligations.RdnSplitsByte : Prop :=
  ∀ (s : State) (b : Byte), s.fcode = none → s.mode = .read → s.pv = false → s.srcAnswer = .byte b →
    exec .rdn s = .next { s with
      pend := b.extractLsb' 0 4,
      pv := true,
      env := s.bread.env,
      trace := s.trace ++ [.bread (.byte b), .rsp ⟨.ok, false, (b.extractLsb' 4 4).setWidth 8⟩] }

/-- R97: EOD gives EOS and writes no register; the next RDN asks again, and answers EOS again where the byte side keeps its
duty (20_memory.md R54), which is a hypothesis here (log 9). -/
def Obligations.RdnEndOfStream : Prop :=
  ∀ s : State, s.fcode = none → s.mode = .read → s.pv = false → s.srcAnswer = .eod →
    ∃ t, t = { s with env := s.bread.env, trace := s.trace ++ [.bread .eod, .rsp ⟨.eos, false, 0x00⟩] } ∧
      exec .rdn s = .next t ∧
      (t.srcAnswer = .eod → exec .rdn t =
        .next { t with env := t.bread.env, trace := t.trace ++ [.bread .eod, .rsp ⟨.eos, false, 0x00⟩] })

/-- R98: IOERR raises IO_ERROR; PV and PEND are unchanged. -/
def Obligations.RdnReadErrorFaults : Prop :=
  ∀ s : State, s.fcode = none → s.mode = .read → s.pv = false → s.srcAnswer = .ioerr →
    exec .rdn s = .next { s with
      fcode := some .ioError,
      env := s.bread.env,
      trace := s.trace ++ [.bread .ioerr, .rsp ⟨.fault, false, 0x05⟩] }

/-- R100: RDN in a write session, or with none, faults without a byte-side request. -/
def Obligations.RdnOutsideReadSessionFaults : Prop :=
  ∀ s : State, s.fcode = none →
    (s.mode = .write → exec .rdn s =
      .next { s with fcode := some .wrongDir, trace := s.trace ++ [.rsp ⟨.fault, false, 0x04⟩] }) ∧
    (s.mode = .idle → exec .rdn s =
      .next { s with fcode := some .notOpen, trace := s.trace ++ [.rsp ⟨.fault, false, 0x02⟩] })

/-- R99: in a read session whose bytes are `file`, then EOD `k` times, 2·|file| + k RDNs answer the nibbles of `file` in
stream order and then EOS `k` times. The spec's own inference: "[derived: from rules R95, R96 and R97]". And a whole read
session in the deterministic environment (20_memory.md R57), of any number `n` of RDNs and whatever an earlier session left:
it reads the stream attached from its first byte, answers EOS for ever at its end (R54), and leaves the cursor after the
bytes it read. That the host's attachments stand in a list is the model's choice (log 19), as are the scripts (log 1). -/
def Obligations.RdnStreamSequence : Prop :=
  (∀ (file : List Byte) (k : Nat) (rest : List SrcAnswer) (s : State) (q : Scripts),
    s.fcode = none → s.mode = .read → s.pv = false →
    s.env = .scripted q → q.reads.answers = file.map .byte ++ List.replicate k .eod ++ rest →
    ∃ t q', execAll (List.replicate (2 * file.length + k) .rdn) s = .next t ∧
      t.responses = s.responses ++
        file.flatMap (fun b => [⟨.ok, false, (b.extractLsb' 4 4).setWidth 8⟩, ⟨.ok, false, (b.extractLsb' 0 4).setWidth 8⟩]) ++
        List.replicate k ⟨.eos, false, 0x00⟩ ∧
      t.fcode = none ∧ t.mode = .read ∧ t.pv = false ∧ t.env = .scripted q' ∧ q'.reads.answers = rest) ∧
  ∀ (n : Nat) (s : State) (l : ListSide), s.fcode = none → s.mode = .idle → s.env = .lists l →
    ∃ t, execAll (.openSession .read :: List.replicate n .rdn ++ [.close]) s = .next t ∧
      t.responses = s.responses ++ ⟨.ok, false, 0x00⟩ ::
        List.take n ((unpackFormat l.attached).map (fun nib => ⟨.ok, false, nib.setWidth 8⟩) ++
          List.replicate n ⟨.eos, false, 0x00⟩) ++ [⟨.ok, false, 0x00⟩] ∧
      t.fcode = none ∧ t.mode = .idle ∧ t.pv = false ∧
      t.env = .lists { attached := l.later.headD l.attached, later := l.later.tail, source := l.attached,
                       cursor := min l.attached.length ((n + 1) / 2), sink := l.sink }

/-! ## WRN -/

/-- R102: the first nibble of a pair is buffered without a byte-side request. -/
def Obligations.WrnBuffersFirstNibble : Prop :=
  ∀ (nib : Nibble) (s : State), s.fcode = none → s.mode = .write → s.pv = false →
    exec (.wrn nib) s = .next { s with pend := nib, pv := true, trace := s.trace ++ [.rsp ⟨.ok, false, 0x00⟩] }

/-- R103, R104: the second nibble of a pair sends the byte {PEND, NIB} with one BWRITE and answers it; a WRN that only
buffered answers (OK, 0, 0x00). -/
def Obligations.WrnSendsPair : Prop :=
  ∀ (nib : Nibble) (s : State), s.fcode = none → s.mode = .write →
    (s.pv = true → s.snkAnswer = .ok →
      exec (.wrn nib) s = .next { s with
        pv := false,
        env := (s.bwrite (s.pend ++ nib)).env,
        trace := s.trace ++ [.bwrite (s.pend ++ nib) .ok, .rsp ⟨.ok, true, s.pend ++ nib⟩] }) ∧
    (s.pv = false → ∃ t, Answers (exec (.wrn nib) s) s t [] ⟨.ok, false, 0x00⟩)

/-- R106: IOERR on the BWRITE raises IO_ERROR; PV stays 1 and PEND is unchanged. -/
def Obligations.WrnWriteErrorFaults : Prop :=
  ∀ (nib : Nibble) (s : State), s.fcode = none → s.mode = .write → s.pv = true → s.snkAnswer = .ioerr →
    exec (.wrn nib) s = .next { s with
      fcode := some .ioError,
      env := (s.bwrite (s.pend ++ nib)).env,
      trace := s.trace ++ [.bwrite (s.pend ++ nib) .ioerr, .rsp ⟨.fault, false, 0x05⟩] }

/-- R107: WRN in a read session, or with none, faults without a byte-side request. -/
def Obligations.WrnOutsideWriteSessionFaults : Prop :=
  ∀ (nib : Nibble) (s : State), s.fcode = none →
    (s.mode = .read → exec (.wrn nib) s =
      .next { s with fcode := some .wrongDir, trace := s.trace ++ [.rsp ⟨.fault, false, 0x04⟩] }) ∧
    (s.mode = .idle → exec (.wrn nib) s =
      .next { s with fcode := some .notOpen, trace := s.trace ++ [.rsp ⟨.fault, false, 0x02⟩] })

/-- R105: successive WRNs send the bytes of the nibbles' pairs, each during its second WRN, and leave the odd nibble
pending; the byte side answers ok to each BWRITE. The spec's own inference: "[derived: from rules R102 and R103]". And a
whole write session in the deterministic environment (20_memory.md R57): its stream is empty at open, whatever an earlier
session left, holds the bytes of the complete pairs before CLOSE and the packed format after it. The scripts are the model's
choice (log 1). -/
def Obligations.WrnSequencePacks : Prop :=
  (∀ (ns : List Nibble) (rest : List SnkAnswer) (s : State) (q : Scripts),
    s.fcode = none → s.mode = .write → s.pv = false →
    s.env = .scripted q → q.writes.answers = List.replicate (ns.length / 2) .ok ++ rest →
    ∃ t, execAll (ns.map .wrn) s = .next t ∧
      t.sentBytes = s.sentBytes ++ pairBytes ns ∧
      t.responses = s.responses ++ wrnResponses ns ∧
      t.fcode = none ∧ t.mode = .write ∧ t.pv = decide (ns.length % 2 = 1) ∧
      (ns.length % 2 = 1 → some t.pend = ns.getLast?)) ∧
  ∀ (ns : List Nibble) (s : State) (l : ListSide), s.fcode = none → s.mode = .idle → s.env = .lists l →
    ∃ t u, execAll (.openSession .write :: ns.map .wrn) s = .next t ∧ exec .close t = .next u ∧
      t.env = .lists { l with sink := pairBytes ns } ∧
      u.env = .lists { l with sink := packFormat ns } ∧
      u.sentBytes = s.sentBytes ++ packFormat ns ∧
      t.fcode = none ∧ t.mode = .write ∧ u.fcode = none ∧ u.mode = .idle ∧ u.pv = false

/-! ## CLOSE -/

/-- R109, R113: CLOSE of a read session, or of a write session with nothing pending, issues one BCLOSE, no BWRITE and no
BREAD; where it succeeds PV becomes 0, so a pending low nibble is discarded, and no output carries it. -/
def Obligations.CloseWithoutFlush : Prop :=
  ∀ s : State, s.fcode = none → (s.mode = .read ∨ (s.mode = .write ∧ s.pv = false)) →
    (s.closeAnswer = .ok → exec .close s = .next { s with
      mode := .idle,
      pv := false,
      env := s.bclose.env,
      trace := s.trace ++ [.bclose .ok, .rsp ⟨.ok, false, 0x00⟩] }) ∧
    (s.closeAnswer = .ioerr → exec .close s = .next { s with
      fcode := some .ioError,
      env := s.bclose.env,
      trace := s.trace ++ [.bclose .ioerr, .rsp ⟨.fault, false, 0x05⟩] })

/-- R112: CLOSE of a write session with a pending nibble first sends {PEND, 0000} with one BWRITE, then issues BCLOSE,
however that is answered; where it is answered ok the session ends and the response carries the byte. -/
def Obligations.CloseFlushesPending : Prop :=
  ∀ (s : State) (b : Byte), b = s.pend ++ 0#4 → s.fcode = none → s.mode = .write → s.pv = true → s.snkAnswer = .ok →
    (∃ t r, Answers (exec .close s) s t [.bwrite b .ok, .bclose (s.bwrite b).closeAnswer] r) ∧
    ((s.bwrite b).closeAnswer = .ok → exec .close s = .next { s with
      mode := .idle,
      pv := false,
      env := (s.bwrite b).bclose.env,
      trace := s.trace ++ [.bwrite b .ok, .bclose .ok, .rsp ⟨.ok, true, b⟩] })

/-- R110: IOERR on BCLOSE raises IO_ERROR and leaves MODE, PV and PEND; a flush byte already sent stays sent. -/
def Obligations.CloseErrorKeepsState : Prop :=
  ∀ s : State, s.fcode = none →
    ((s.mode = .read ∨ (s.mode = .write ∧ s.pv = false)) → s.closeAnswer = .ioerr →
      exec .close s = .next { s with
        fcode := some .ioError,
        env := s.bclose.env,
        trace := s.trace ++ [.bclose .ioerr, .rsp ⟨.fault, false, 0x05⟩] }) ∧
    (s.mode = .write → s.pv = true → s.snkAnswer = .ok → (s.bwrite (s.pend ++ 0#4)).closeAnswer = .ioerr →
      exec .close s = .next { s with
        fcode := some .ioError,
        env := (s.bwrite (s.pend ++ 0#4)).bclose.env,
        trace := s.trace ++ [.bwrite (s.pend ++ 0#4) .ok, .bclose .ioerr, .rsp ⟨.fault, false, 0x05⟩] })

/-- R111: IOERR on the flush raises IO_ERROR; no BCLOSE is issued, and MODE, PV and PEND are unchanged. -/
def Obligations.FlushErrorIssuesNoClose : Prop :=
  ∀ s : State, s.fcode = none → s.mode = .write → s.pv = true → s.snkAnswer = .ioerr →
    exec .close s = .next { s with
      fcode := some .ioError,
      env := (s.bwrite (s.pend ++ 0#4)).env,
      trace := s.trace ++ [.bwrite (s.pend ++ 0#4) .ioerr, .rsp ⟨.fault, false, 0x05⟩] }

/-- R114: a CLOSE that answers OK leaves MODE IDLE and PV 0, and no fault; and a CLOSE answers OK wherever a session is open,
no fault is recorded and the byte side answers ok to each request the CLOSE makes. -/
def Obligations.SuccessfulCloseEndsSession : Prop :=
  ∀ s : State, ∃ t reqs r, Answers (exec .close s) s t reqs r ∧
    (r.st = .ok → t.mode = .idle ∧ t.pv = false ∧ t.fcode = none) ∧
    (r.st = .ok ↔ s.fcode = none ∧ s.mode ≠ .idle ∧ reqs.all (fun e => !e.isIoErr) = true)

/-- R115: CLOSE with no session raises NOT_OPEN without a byte-side request, as a second CLOSE after a successful one
does. -/
def Obligations.CloseWithoutSessionFaults : Prop :=
  (∀ s : State, s.fcode = none → s.mode = .idle →
    exec .close s = .next { s with fcode := some .notOpen, trace := s.trace ++ [.rsp ⟨.fault, false, 0x02⟩] }) ∧
  ∀ (s t : State) (reqs : List Event) (r : Response), Answers (exec .close s) s t reqs r → r.st = .ok →
    exec .close t = .next { t with fcode := some .notOpen, trace := t.trace ++ [.rsp ⟨.fault, false, 0x02⟩] }

/-! ## The session, over all commands -/

/-- R116, the whole table for a block that is not faulted. The spec's own inference: "[derived: from rules R90 to R115
...]". -/
def Obligations.SessionLifeCycle : Prop :=
  ∀ (i : Instr) (s : State), s.fcode = none → ∃ t reqs r, Answers (exec i s) s t reqs r ∧
    match s.mode, i with
    | .idle, .openSession dir =>
      (s.openAnswer = .ok → t.mode = modeOf dir ∧ r.st = .ok) ∧ (s.openAnswer = .fail → t.mode = .idle ∧ r.st = .openFail)
    | .idle, .rdn => t.mode = .idle ∧ r.st = .fault ∧ t.fcode = some .notOpen ∧ reqs = []
    | .idle, .wrn _ => t.mode = .idle ∧ r.st = .fault ∧ t.fcode = some .notOpen ∧ reqs = []
    | .idle, .close => t.mode = .idle ∧ r.st = .fault ∧ t.fcode = some .notOpen ∧ reqs = []
    | .read, .rdn =>
      t.mode = .read ∧ (r.st = .ok ∨ r.st = .eos ∨ (r.st = .fault ∧ t.fcode = some .ioError))
    | .read, .wrn _ => t.mode = .read ∧ r.st = .fault ∧ t.fcode = some .wrongDir ∧ reqs = []
    | .write, .wrn _ => t.mode = .write ∧ (r.st = .ok ∨ (r.st = .fault ∧ t.fcode = some .ioError))
    | .write, .rdn => t.mode = .write ∧ r.st = .fault ∧ t.fcode = some .wrongDir ∧ reqs = []
    | .read, .openSession _ => t.mode = .read ∧ r.st = .fault ∧ t.fcode = some .alreadyOpen ∧ reqs = []
    | .write, .openSession _ => t.mode = .write ∧ r.st = .fault ∧ t.fcode = some .alreadyOpen ∧ reqs = []
    | .read, .close =>
      (s.closeAnswer = .ok → t.mode = .idle ∧ r.st = .ok) ∧
      (s.closeAnswer = .ioerr → t.mode = .read ∧ r.st = .fault ∧ t.fcode = some .ioError)
    | .write, .close =>
      if reqs.any Event.isIoErr = true then t.mode = .write ∧ r.st = .fault ∧ t.fcode = some .ioError
      else t.mode = .idle ∧ r.st = .ok
    | mode, .lenc _ => t.mode = mode ∧ r.st = .ok ∧ reqs = []
    | mode, .ldec _ => t.mode = mode ∧ r.st = .ok ∧ reqs = []
    | mode, .stat => t.mode = mode ∧ r.st = .ok ∧ reqs = []

/-- R27: among commands only OPEN takes MODE from IDLE to READ or WRITE, and only CLOSE takes it back; none moves it between
READ and WRITE. A step may also change MODE by reset (R41). -/
def Obligations.OnlyOpenAndCloseMoveMode : Prop :=
  ∀ s t : State, step s = .next t → t.mode ≠ s.mode →
    (s.ResetNow ∧ t.mode = .idle) ∨
    ∃ w rest i, s.input = .cmd w :: rest ∧ decode w = .legal i ∧
      ((s.mode = .idle ∧ ∃ dir, i = .openSession dir ∧ t.mode = modeOf dir) ∨ (s.mode ≠ .idle ∧ t.mode = .idle ∧ i = .close))

/-- Which commands may write which register: the frame of all seven. The spec's own inference: R35 "[derived: ...]", with
R128 and R136. The host's inputs and the RST level are written by no command. -/
def Obligations.RegisterAccessByCommand : Prop :=
  ∀ (i : Instr) (s : State), ∃ t, exec i s = .next t ∧ t.rst = s.rst ∧ t.input = s.input ∧
    match i with
    | .openSession _ => t.pend = s.pend
    | .rdn => t.mode = s.mode
    | .wrn _ => t.mode = s.mode
    | .close => t.pend = s.pend
    | .lenc _ => t.mode = s.mode ∧ t.pv = s.pv ∧ t.pend = s.pend ∧ t.fcode = s.fcode ∧ t.env = s.env
    | .ldec _ => t.mode = s.mode ∧ t.pv = s.pv ∧ t.pend = s.pend ∧ t.fcode = s.fcode ∧ t.env = s.env
    | .stat => t.mode = s.mode ∧ t.pv = s.pv ∧ t.pend = s.pend ∧ t.fcode = s.fcode ∧ t.env = s.env

/-- The byte-side requests a command may make, in their order. The spec's own inference: R64 "[derived: ...]". -/
def Obligations.RequestsPerCommand : Prop :=
  ∀ (i : Instr) (s : State), ∃ t reqs r, Answers (exec i s) s t reqs r ∧
    match i with
    | .openSession dir => reqs = [] ∨ ∃ a, reqs = [.bopen dir a]
    | .rdn => reqs = [] ∨ ∃ a, reqs = [.bread a]
    | .wrn nib => reqs = [] ∨ ∃ a, reqs = [.bwrite (s.pend ++ nib) a]
    | .close =>
      reqs = [] ∨ (∃ a, reqs = [.bclose a]) ∨ reqs = [.bwrite (s.pend ++ 0#4) .ioerr] ∨
        ∃ a, reqs = [.bwrite (s.pend ++ 0#4) .ok, .bclose a]
    | .lenc _ => reqs = []
    | .ldec _ => reqs = []
    | .stat => reqs = []

/-! ## LENC and LDEC -/

/-- R121, R122: LENC compares with CLUT[1] to CLUT[15] only, at most one entry matches, a match at i answers FLAG = 1 and
DATA = i, and no match FLAG = 0 and DATA = 0. -/
def Obligations.LencAnswersIndex : Prop :=
  ∀ (b : Byte) (s : State), s.fcode = none →
    (∀ i : Nibble, i ≠ 0 → clut.entry i = b →
      exec (.lenc b) s = .next { s with trace := s.trace ++ [.rsp ⟨.ok, true, i.setWidth 8⟩] }) ∧
    ((∀ i : Nibble, i ≠ 0 → clut.entry i ≠ b) →
      exec (.lenc b) s = .next { s with trace := s.trace ++ [.rsp ⟨.ok, false, 0x00⟩] }) ∧
    ∀ i j : Nibble, i ≠ 0 → j ≠ 0 → clut.entry i = b → clut.entry j = b → i = j

/-- R123: the byte 0x00 is a miss, although CLUT[0] is 0x00, so the codec escapes it. -/
def Obligations.LencMissesZeroByte : Prop :=
  clut.entry 0 = 0x00 ∧ codeGroup 0x00 = [0, 0, 0] ∧ ∀ s : State, s.fcode = none →
    exec (.lenc 0x00) s = .next { s with trace := s.trace ++ [.rsp ⟨.ok, false, 0x00⟩] }

/-- R126, R127: LDEC of index 0 answers CLUT[0] = 0x00 with FLAG = 1, of any other index the entry with FLAG = 0. -/
def Obligations.LdecReadsTable : Prop :=
  clut.entry 0 = 0x00 ∧ ∀ (idx : Nibble) (s : State), s.fcode = none →
    (idx = 0 → exec (.ldec idx) s = .next { s with trace := s.trace ++ [.rsp ⟨.ok, true, 0x00⟩] }) ∧
    (idx ≠ 0 → exec (.ldec idx) s = .next { s with trace := s.trace ++ [.rsp ⟨.ok, false, clut.entry idx⟩] })

/-- R128: the lookups read only FCODE and CLUT (their response is one and the same in every unfaulted state) and write no
state register. -/
def Obligations.LookupsTouchNoStreamState : Prop :=
  ∀ i : Instr, (∃ b, i = .lenc b) ∨ (∃ k, i = .ldec k) →
    ∃ r, ∀ s : State, s.fcode = none → exec i s = .next { s with trace := s.trace ++ [.rsp r] }

/-- The two lookups are inverse on the codes 1 to 15. The spec's own inference: R129 "[derived: ...]". -/
def Obligations.LookupsAreInverse : Prop :=
  ∀ (b : Byte) (i : Nibble) (s : State), s.fcode = none → i ≠ 0 →
    (exec (.lenc b) s = .next { s with trace := s.trace ++ [.rsp ⟨.ok, true, i.setWidth 8⟩] } ↔
      exec (.ldec i) s = .next { s with trace := s.trace ++ [.rsp ⟨.ok, false, b⟩] })

/-- The lookups are inverse for every table whose entries 1 to 15 are distinct, so the law does not rest on the ASCII
values (93_implementation_defined.md G1: "take CLUT[1..15] as a parameter"). -/
def Obligations.LookupsInverseForAnyTable : Prop :=
  ∀ table : CodeTable, (∀ i j : Nibble, i ≠ 0 → j ≠ 0 → table.entry i = table.entry j → i = j) →
    ∀ (b : Byte) (i : Nibble), table.scan b = some i ↔ i ≠ 0 ∧ table.entry i = b

/-- R37: the entries 1 to 15 are pairwise distinct and none is 0x00. -/
def Obligations.CodeTableDistinct : Prop :=
  ∀ i j : Nibble, i ≠ 0 → j ≠ 0 → clut.entry i ≠ 0x00 ∧ (clut.entry i = clut.entry j → i = j)

/-! ## STAT -/

/-- R34: the STATUS byte, field by field, as STAT answers it in every state; every bit is one of these, so PEND is not in
it. -/
def Obligations.StatAnswersStatus : Prop :=
  ∀ s : State, ∃ v : Byte,
    exec .stat s = .next { s with trace := s.trace ++ [.rsp ⟨.ok, false, v⟩] } ∧
    v.extractLsb' 0 2 = (match s.mode with | .idle => 0b00 | .read => 0b01 | .write => 0b10) ∧
    v.getLsbD 2 = s.pv ∧ v.getLsbD 3 = false ∧
    v.extractLsb' 4 3 = (match s.fcode with
      | none => 0b000 | some .illegalCmd => 0b001 | some .notOpen => 0b010 | some .alreadyOpen => 0b011
      | some .wrongDir => 0b100 | some .ioError => 0b101) ∧
    v.getLsbD 7 = false

/-- R136: STAT is the one command a faulted block executes, it changes no register, and an illegal STAT word in a faulted
block answers FAULT like any other. -/
def Obligations.StatRunsWhenFaulted : Prop :=
  ∀ (s : State) (c : FaultCause), s.fcode = some c →
    exec .stat s = .next { s with trace := s.trace ++ [.rsp ⟨.ok, false, statusByte s⟩] } ∧
    (∀ i, i ≠ .stat → exec i s = .next { s with trace := s.trace ++ [.rsp ⟨.fault, false, c.code.setWidth 8⟩] }) ∧
    (∀ w : CmdWord, w.toNat / 4096 = 7 → w ≠ 0x7000 →
      acceptWord w s = .next { s with trace := s.trace ++ [.rsp ⟨.fault, false, c.code.setWidth 8⟩] })

/-! ## Faults -/

/-- R163, R165: a command that raises a fault writes FCODE and no other register, answers (FAULT, 0, code), and leaves the
byte-side transactions it made before. -/
def Obligations.FaultEntryWritesOnlyFcode : Prop :=
  ∀ (w : CmdWord) (s : State), s.fcode = none → ∃ t reqs r, Answers (acceptWord w s) s t reqs r ∧
    (r.st = .fault ↔ t.fcode ≠ none) ∧
    ∀ c, t.fcode = some c → t.mode = s.mode ∧ t.pv = s.pv ∧ t.pend = s.pend ∧ r = ⟨.fault, false, c.code.setWidth 8⟩

/-- R164: while faulted every word but a legal STAT answers (FAULT, 0, FCODE) and does nothing else, and only reset leaves
the faulted state. -/
def Obligations.FaultedBlockAbsorbs : Prop :=
  (∀ (w : CmdWord) (s : State) (c : FaultCause), s.fcode = some c → decode w ≠ .legal .stat →
    acceptWord w s = .next { s with trace := s.trace ++ [.rsp ⟨.fault, false, c.code.setWidth 8⟩] }) ∧
  ∀ (s t : State) (c : FaultCause), step s = .next t → s.fcode = some c → t.fcode = some c ∨ s.ResetNow

/-- R162: the order of the checks decides the outcome of every accepted word. -/
def Obligations.CheckOrderDecides : Prop :=
  ∀ (w : CmdWord) (s : State), ∃ t reqs r, Answers (acceptWord w s) s t reqs r ∧
    match decode w, s.fcode with
    | .illegal _, none => t.fcode = some .illegalCmd ∧ r = ⟨.fault, false, 0x01⟩ ∧ reqs = []
    | .illegal _, some c => t = { s with trace := t.trace } ∧ r = ⟨.fault, false, c.code.setWidth 8⟩ ∧ reqs = []
    | .legal .stat, _ => t = { s with trace := t.trace } ∧ r = ⟨.ok, false, statusByte s⟩ ∧ reqs = []
    | .legal _, some c => t = { s with trace := t.trace } ∧ r = ⟨.fault, false, c.code.setWidth 8⟩ ∧ reqs = []
    | .legal i, none =>
      match i, s.mode with
      | .openSession _, .read => t.fcode = some .alreadyOpen ∧ reqs = []
      | .openSession _, .write => t.fcode = some .alreadyOpen ∧ reqs = []
      | .rdn, .idle => t.fcode = some .notOpen ∧ reqs = []
      | .wrn _, .idle => t.fcode = some .notOpen ∧ reqs = []
      | .close, .idle => t.fcode = some .notOpen ∧ reqs = []
      | .rdn, .write => t.fcode = some .wrongDir ∧ reqs = []
      | .wrn _, .read => t.fcode = some .wrongDir ∧ reqs = []
      | _, _ => t.fcode = (if reqs.any Event.isIoErr = true then some .ioError else none) ∧
        ∀ e ∈ reqs.dropLast, e.isIoErr = false

/-- R32: FCODE's codes (110 and 111 are held by no value), and that a step changes FCODE only by a command that faults
while it is 000, or back to 000 by reset. -/
def Obligations.FcodeRecordsFirstFault : Prop :=
  (fcodeBits none = 0b000 ∧ fcodeBits (some .illegalCmd) = 0b001 ∧ fcodeBits (some .notOpen) = 0b010 ∧
    fcodeBits (some .alreadyOpen) = 0b011 ∧ fcodeBits (some .wrongDir) = 0b100 ∧ fcodeBits (some .ioError) = 0b101) ∧
  (∀ f, fcodeBits f ≠ 0b110 ∧ fcodeBits f ≠ 0b111) ∧
  ∀ s t : State, step s = .next t → t.fcode ≠ s.fcode →
    (s.ResetNow ∧ t.fcode = none) ∨
    (s.fcode = none ∧ (∃ w rest, s.input = .cmd w :: rest) ∧ ∃ r, t.trace.getLast? = some (.rsp r) ∧ r.st = .fault)

/-! ## Invariants of the whole machine -/

/-- Every step keeps: PV = 0 while MODE = IDLE (10_state.md R31, the spec's own inference "[derived: ...]"), and the registers
are at reset while RST is asserted. -/
def Obligations.StepKeepsInv : Prop :=
  ∀ s t : State, s.Inv → step s = .next t → t.Inv

/-- The invariant holds at reset. -/
def Obligations.ResetMeetsInv : Prop := State.reset.Inv

/-- PEND is unobservable while PV = 0: two states that differ only in it step to two that differ at most so, with the same
events. The spec's own inference: R29 "[derived: ...]". -/
def Obligations.IdlePendIsUnobservable : Prop :=
  ∀ s s' t : State, s.SameButIdlePend s' → step s = .next t →
    ∃ t', step s' = .next t' ∧ t.SameButIdlePend t' ∧ t'.trace = t.trace

/-- Nothing that has gone out is withdrawn or reordered, and what the byte side has still to give is used up in order.
The model's own, no rule of the spec: the record `trace` (log 7) and the scripts (log 1), of which a step takes from the
front only; the list of inputs (log 3, DESIGN CHOICE), of which a step drops the first; and that a word offered while RST is
asserted is dropped too (log 4, DEDUCED, unsafe for counts of words across a reset). From 20_memory.md section 1 in the
deterministic environment of section 2: bytes are read front to back, none skipped or read again, and written at the end;
only a BOPEN starts a stream anew, with the host's attachments in a list (log 19). -/
def Obligations.StepOnlyAppends : Prop :=
  ∀ s t : State, step s = .next t →
    s.trace <+: t.trace ∧ t.input = s.input.tail ∧
    match s.env, t.env with
    | .scripted q, .scripted q' =>
      q'.opens.answers <:+ q.opens.answers ∧ q'.reads.answers <:+ q.reads.answers ∧
      q'.writes.answers <:+ q.writes.answers ∧ q'.closes.answers <:+ q.closes.answers
    | .lists l, .lists l' =>
      let events := s.eventsSince t
      if .bopen .read .ok ∈ events then
        l' = { attached := l.later.headD l.attached, later := l.later.tail, source := l.attached, cursor := 0, sink := l.sink }
      else if .bopen .write .ok ∈ events then l' = { l with sink := [] }
      else
        l'.attached = l.attached ∧ l'.later = l.later ∧ l'.source = l.source ∧
        l.source.drop l.cursor = events.filterMap Event.readByte? ++ l'.source.drop l'.cursor ∧
        l'.cursor = l.cursor + (events.filterMap Event.readByte?).length ∧
        l'.sink = l.sink ++ events.filterMap Event.sentByte?
    | .scripted _, .lists _ => False
    | .lists _, .scripted _ => False

/-! ## The reference codec -/

/-- Compress writes the packed format of its input's code groups and ends ok, with the byte side answering ok
(45_reference_codec.md R140 to R143, R149); in the deterministic environment (20_memory.md R57) the session's stream is
exactly that, whatever an earlier session wrote. -/
def Obligations.CompressWritesPackedFormat : Prop :=
  ∀ (raw : List Byte) (s : State), s.Ready → s.ByteSideOk →
    (compress raw s).ending = .ok ∧
    (compress raw s).state.sentBytes = s.sentBytes ++ packFormat (codeNibbles raw) ∧
    (compress raw s).state.Ready ∧
    ∀ l, s.env = .lists l → (compress raw s).state.env = .lists { l with sink := packFormat (codeNibbles raw) }

/-- Decompress of a file puts out what its nibbles parse to and ends ok (45_reference_codec.md R144 to R147), from a script of
the file's bytes and in the deterministic environment of 20_memory.md R57, whatever an earlier session left; there it reads
the whole file and leaves the host's next attachment for the next session. The count of turns is the model's (log 15), as are
the scripts (log 1) and the list of attachments (log 19). -/
def Obligations.DecompressParsesFile : Prop :=
  ∀ (file : List Byte) (fuel : Nat) (s : State), s.Ready → s.Serves file → 2 * file.length < fuel →
    (decompress fuel s).ending = .ok ∧
    (decompress fuel s).out = parseNibbles (unpackFormat file) ∧
    (decompress fuel s).state.Ready ∧
    ∀ l, s.env = .lists l → (decompress fuel s).state.env =
      .lists { attached := l.later.headD l.attached, later := l.later.tail, source := l.attached,
               cursor := l.attached.length, sink := l.sink }

/-- R151, the round trip through two runs of the machine: decompress of the bytes compress sent, and in the deterministic
environment (20_memory.md R57) of the stream compress's session left. The spec's own inference: "[derived: ...]". -/
def Obligations.CompressDecompressRoundTrip : Prop :=
  (∀ (raw : List Byte) (s s' : State) (file : List Byte) (fuel : Nat),
    s.Ready → s.ByteSideOk → (compress raw s).state.sentBytes = s.sentBytes ++ file →
    s'.Ready → s'.Serves file → 2 * file.length < fuel →
    (decompress fuel s').ending = .ok ∧ (decompress fuel s').out = raw) ∧
  ∀ (raw : List Byte) (s s' : State) (l₀ l : ListSide) (fuel : Nat),
    s.Ready → s.env = .lists l₀ → (compress raw s).state.env = .lists l →
    s'.Ready → s'.Serves l.sink → 2 * l.sink.length < fuel →
    (decompress fuel s').ending = .ok ∧ (decompress fuel s').out = raw

/-- A padding nibble adds no byte, and a truncated escape emits nothing: parsing the groups of any input followed by nothing,
by an escape, or by an escape and one nibble gives the input. The spec's own inference: R150 "[derived: ...]", with R147. -/
def Obligations.PaddingAndTruncationAddNothing : Prop :=
  ∀ raw : List Byte,
    parseNibbles (unpackFormat (packFormat (codeNibbles raw))) = raw ∧
    parseNibbles (codeNibbles raw ++ [0]) = raw ∧ ∀ h : Nibble, parseNibbles (codeNibbles raw ++ [0, h]) = raw

/-- R152: `h` hits and `e` misses give h + 3e nibbles and ceil((h + 3e) / 2) bytes, written by compress. The spec's own
inference: "[derived: ...]". -/
def Obligations.CompressedSize : Prop :=
  ∀ (raw : List Byte) (s : State), s.Ready → s.ByteSideOk →
    let h := raw.countP (fun x => (clut.scan x).isSome)
    let e := raw.countP (fun x => (clut.scan x).isNone)
    (codeNibbles raw).length = h + 3 * e ∧
    (compress raw s).state.sentBytes.length = s.sentBytes.length + (h + 3 * e + 1) / 2
end

