-- ==== Sys2Proof/Laws/Operands.lean ====
section
/-! SUPPORT. Packing and splitting undo each other (20_memory.md R58), and the fields of the small codes. -/

namespace Sys2Proof.Machine

@[simp] theorem highNibble_packNibbles (hi lo : Nibble) : highNibble (packNibbles hi lo) = hi := by
  revert hi lo; decide

@[simp] theorem lowNibble_packNibbles (hi lo : Nibble) : lowNibble (packNibbles hi lo) = lo := by
  revert hi lo; decide

@[simp] theorem packNibbles_split (b : Byte) : packNibbles (highNibble b) (lowNibble b) = b := by revert b; decide

@[simp] theorem lowNibble_zextNibble (n : Nibble) : lowNibble (zextNibble n) = n := by revert n; decide

theorem zextNibble_eq_zero (n : Nibble) : zextNibble n = 0 ↔ n = escIdx := by revert n; decide

/-- Every index but the escape is scanned (41_lut.md R121). -/
theorem mem_codeIndices (i : Nibble) : i ∈ codeIndices ↔ i ≠ 0 := by revert i; decide

/-- FCODE tells the faults apart, and from no fault (60_exceptions.md R160). -/
theorem fcodeBits_injective (f g : Option FaultCause) (h : fcodeBits f = fcodeBits g) : f = g := by
  rcases f with _ | c <;> rcases g with _ | d <;> (try cases c) <;> (try cases d) <;>
    first | rfl | exact absurd h (by decide)

/-- The STATUS byte of an unfaulted block without a session is 0x00 (42_status.md R135, corner case "after reset"). -/
theorem statusOf_reset : statusOf .idle false none = 0x00 := by decide

end Sys2Proof.Machine
end

