-- ==== Sys2Proof/Laws/Codec.lean ====
section
/-! SUPPORT. The equations of the packed format and of its parser, case by case (45_reference_codec.md R145 to R149). -/

namespace Sys2Proof.Machine

@[simp] theorem packFormat_nil : packFormat [] = [] := rfl

@[simp] theorem packFormat_odd (n : Nibble) : packFormat [n] = [packNibbles n padNibble] := by simp [packFormat]

@[simp] theorem packFormat_pair (hi lo : Nibble) (rest : List Nibble) :
    packFormat (hi :: lo :: rest) = packNibbles hi lo :: packFormat rest := by simp [packFormat]

@[simp] theorem unpackFormat_nil : unpackFormat [] = [] := rfl

@[simp] theorem unpackFormat_cons (b : Byte) (file : List Byte) :
    unpackFormat (b :: file) = highNibble b :: lowNibble b :: unpackFormat file := rfl

@[simp] theorem parseNibbles_nil : parseNibbles [] = [] := by simp [parseNibbles]

/-- A direct code (R146). -/
theorem parseNibbles_direct {n : Nibble} (h : n ≠ escIdx) (rest : List Nibble) :
    parseNibbles (n :: rest) = clut.entry n :: parseNibbles rest := by
  rw [parseNibbles.eq_def]; simp [h]

/-- A whole escape (R147). -/
@[simp] theorem parseNibbles_escape (hi lo : Nibble) (rest : List Nibble) :
    parseNibbles (escIdx :: hi :: lo :: rest) = packNibbles hi lo :: parseNibbles rest := by
  rw [parseNibbles.eq_def]; simp

/-- An escape cut short at once (R147). -/
@[simp] theorem parseNibbles_truncated : parseNibbles [escIdx] = [] := by
  rw [parseNibbles.eq_def]; simp

/-- An escape cut short after one nibble (R147). -/
@[simp] theorem parseNibbles_truncated_high (hi : Nibble) : parseNibbles [escIdx, hi] = [] := by
  rw [parseNibbles.eq_def]; simp

end Sys2Proof.Machine
end

