-- ==== Sys2Proof/Laws/Decode.lean ====
section
/-! SUPPORT. The fields of a word as numbers, the decoder against the field checks of WellFormed.lean, the word a placed
command gives, and the port payloads. -/

namespace Sys2Proof

theorem CmdFields.ofWord_op (w : CmdWord) : (CmdFields.ofWord w).op.toNat = w.toNat / 4096 := by
  have := w.isLt
  simp [CmdFields.ofWord, BitVec.extractLsb'_toNat, Nat.shiftRight_eq_div_pow]; omega

theorem CmdFields.ofWord_rsv (w : CmdWord) : (CmdFields.ofWord w).rsv.toNat = w.toNat / 256 % 16 := by
  simp [CmdFields.ofWord, BitVec.extractLsb'_toNat, Nat.shiftRight_eq_div_pow]

theorem CmdFields.ofWord_arg (w : CmdWord) : (CmdFields.ofWord w).arg.toNat = w.toNat % 256 := by
  simp [CmdFields.ofWord, BitVec.extractLsb'_toNat]

theorem argHigh_eq_zero (arg : Byte) : argHigh arg = 0 ↔ arg.toNat ≤ 0x0F := by
  have := arg.isLt
  simp [BitVec.toNat_eq, argHigh, BitVec.extractLsb'_toNat, Nat.shiftRight_eq_div_pow]; omega

theorem argLow_toNat (arg : Byte) : (argLow arg).toNat = arg.toNat % 16 := by
  simp [argLow, BitVec.extractLsb'_toNat]

/-- The decoder accepts a word exactly where the checks on its three fields hold (30_encoding.md R71 to R73). -/
theorem decode_legal_iff_wellFormed (w : CmdWord) :
    (∃ i, decode w = .legal i) ↔ (CmdFields.ofWord w).wellFormed = true := by
  simp only [decode, opSelects, decodeOp, CmdFields.wellFormed, CmdFields.opLegal, CmdFields.rsvLegal, CmdFields.argLegal]
  generalize CmdFields.ofWord w = f
  obtain ⟨op, rsv, arg⟩ := f
  have hop := op.isLt
  have hr : rsv = 0 ↔ rsv.toNat = 0 := by simp [BitVec.toNat_eq]
  have h0 : arg = 0#8 ↔ arg.toNat = 0 := by simp [BitVec.toNat_eq]
  have h1 : arg = 1#8 ↔ arg.toNat = 1 := by simp [BitVec.toNat_eq]
  have hh := argHigh_eq_zero arg
  simp only [ne_eq, hr]
  by_cases hz : rsv.toNat = 0
  · generalize op.toNat = n at *
    interval_cases n <;> simp [hz] <;> split_ifs <;> (simp_all; try omega)
  · simp [hz]; split_ifs <;> simp

namespace Machine

/-- A word placed by withFetchWord is accepted by the next step (log 3). -/
theorem step_withFetchWord (s : State) (nbits w : Nat) :
    step (s.withFetchWord nbits w) = acceptWord (tableWord nbits w) { s with rst := false } := rfl

@[simp] theorem srcAnswerOfBits_srcKind (a : SrcAnswer) (x : Byte) :
    srcAnswerOfBits (srcKind a) ((srcByte? a).getD x) = some a := by cases a <;> rfl

theorem srcAnswerOfBits_never_sent (x : Byte) : srcAnswerOfBits 0b11 x = none := rfl

@[simp] theorem openOutcomeOfBit_openOkBit (a : OpenOutcome) : openOutcomeOfBit (openOkBit a) = a := by cases a <;> rfl

@[simp] theorem snkAnswerOfBit_snkErrBit (a : SnkAnswer) : snkAnswerOfBit (snkErrBit a) = a := by cases a <;> rfl

@[simp] theorem closeAnswerOfBit_closeErrBit (a : CloseAnswer) : closeAnswerOfBit (closeErrBit a) = a := by
  cases a <;> rfl

end Machine

end Sys2Proof
end

