-- ==== Sys2Proof/Laws/State.lean ====
section
/-! SUPPORT. What each primitive of Machine/Ops.lean leaves in each field of the state, one lemma per field, by rfl. -/

namespace Sys2Proof.Machine

/-! The byte side after a request, by the kind of environment -/

@[simp] theorem ByteSide.scripted_opened (q : Scripts) (dir : Direction) :
    (ByteSide.scripted q).opened dir = .scripted { q with opens := q.opens.rest, draws := q.draws + 1 } := rfl
@[simp] theorem ByteSide.lists_opened (l : ListSide) (dir : Direction) :
    (ByteSide.lists l).opened dir = .lists (l.opened dir) := rfl
@[simp] theorem ByteSide.scripted_read (q : Scripts) :
    (ByteSide.scripted q).read = .scripted { q with reads := q.reads.rest, draws := q.draws + 1 } := rfl
@[simp] theorem ByteSide.lists_read (l : ListSide) :
    (ByteSide.lists l).read = .lists (l.read) := rfl
@[simp] theorem ByteSide.scripted_wrote (q : Scripts) (b : Byte) :
    (ByteSide.scripted q).wrote b = .scripted { q with writes := q.writes.rest, draws := q.draws + 1 } := rfl
@[simp] theorem ByteSide.lists_wrote (l : ListSide) (b : Byte) :
    (ByteSide.lists l).wrote b = .lists (l.wrote b) := rfl
@[simp] theorem ByteSide.scripted_closed (q : Scripts) :
    (ByteSide.scripted q).closed = .scripted { q with closes := q.closes.rest, draws := q.draws + 1 } := rfl
@[simp] theorem ByteSide.lists_closed (l : ListSide) :
    (ByteSide.lists l).closed = .lists l := rfl

/-! The deterministic environment (20_memory.md R57), one lemma per field per request -/

@[simp] theorem ListSide.opened_read_attached (l : ListSide) : (l.opened .read).attached = l.later.headD l.attached := rfl
@[simp] theorem ListSide.opened_read_later (l : ListSide) : (l.opened .read).later = l.later.tail := rfl
@[simp] theorem ListSide.opened_read_source (l : ListSide) : (l.opened .read).source = l.attached := rfl
@[simp] theorem ListSide.opened_read_cursor (l : ListSide) : (l.opened .read).cursor = 0 := rfl
@[simp] theorem ListSide.opened_read_sink (l : ListSide) : (l.opened .read).sink = l.sink := rfl
@[simp] theorem ListSide.opened_write_attached (l : ListSide) : (l.opened .write).attached = l.attached := rfl
@[simp] theorem ListSide.opened_write_later (l : ListSide) : (l.opened .write).later = l.later := rfl
@[simp] theorem ListSide.opened_write_source (l : ListSide) : (l.opened .write).source = l.source := rfl
@[simp] theorem ListSide.opened_write_cursor (l : ListSide) : (l.opened .write).cursor = l.cursor := rfl
@[simp] theorem ListSide.opened_write_sink (l : ListSide) : (l.opened .write).sink = [] := rfl
@[simp] theorem ListSide.read_attached (l : ListSide) : (l.read).attached = l.attached := rfl
@[simp] theorem ListSide.read_later (l : ListSide) : (l.read).later = l.later := rfl
@[simp] theorem ListSide.read_source (l : ListSide) : (l.read).source = l.source := rfl
@[simp] theorem ListSide.read_cursor (l : ListSide) : (l.read).cursor =
    if l.cursor < l.source.length then l.cursor + 1 else l.cursor := rfl
@[simp] theorem ListSide.read_sink (l : ListSide) : (l.read).sink = l.sink := rfl
@[simp] theorem ListSide.wrote_attached (l : ListSide) (b : Byte) : (l.wrote b).attached = l.attached := rfl
@[simp] theorem ListSide.wrote_later (l : ListSide) (b : Byte) : (l.wrote b).later = l.later := rfl
@[simp] theorem ListSide.wrote_source (l : ListSide) (b : Byte) : (l.wrote b).source = l.source := rfl
@[simp] theorem ListSide.wrote_cursor (l : ListSide) (b : Byte) : (l.wrote b).cursor = l.cursor := rfl
@[simp] theorem ListSide.wrote_sink (l : ListSide) (b : Byte) : (l.wrote b).sink = l.sink ++ [b] := rfl


/-! `bopen` -/

@[simp] theorem State.bopen_mode (s : State) (dir : Direction) : (s.bopen dir).mode = s.mode := rfl
@[simp] theorem State.bopen_pv (s : State) (dir : Direction) : (s.bopen dir).pv = s.pv := rfl
@[simp] theorem State.bopen_pend (s : State) (dir : Direction) : (s.bopen dir).pend = s.pend := rfl
@[simp] theorem State.bopen_fcode (s : State) (dir : Direction) : (s.bopen dir).fcode = s.fcode := rfl
@[simp] theorem State.bopen_rst (s : State) (dir : Direction) : (s.bopen dir).rst = s.rst := rfl
@[simp] theorem State.bopen_input (s : State) (dir : Direction) : (s.bopen dir).input = s.input := rfl
@[simp] theorem State.bopen_trace (s : State) (dir : Direction) :
    (s.bopen dir).trace = s.trace ++ [.bopen dir s.openAnswer] := rfl
@[simp] theorem State.bopen_env (s : State) (dir : Direction) :
    (s.bopen dir).env = s.env.opened dir := rfl

/-! `bread` -/

@[simp] theorem State.bread_mode (s : State) : (s.bread).mode = s.mode := rfl
@[simp] theorem State.bread_pv (s : State) : (s.bread).pv = s.pv := rfl
@[simp] theorem State.bread_pend (s : State) : (s.bread).pend = s.pend := rfl
@[simp] theorem State.bread_fcode (s : State) : (s.bread).fcode = s.fcode := rfl
@[simp] theorem State.bread_rst (s : State) : (s.bread).rst = s.rst := rfl
@[simp] theorem State.bread_input (s : State) : (s.bread).input = s.input := rfl
@[simp] theorem State.bread_trace (s : State) :
    (s.bread).trace = s.trace ++ [.bread s.srcAnswer] := rfl
@[simp] theorem State.bread_env (s : State) :
    (s.bread).env = s.env.read := rfl

/-! `bwrite` -/

@[simp] theorem State.bwrite_mode (s : State) (b : Byte) : (s.bwrite b).mode = s.mode := rfl
@[simp] theorem State.bwrite_pv (s : State) (b : Byte) : (s.bwrite b).pv = s.pv := rfl
@[simp] theorem State.bwrite_pend (s : State) (b : Byte) : (s.bwrite b).pend = s.pend := rfl
@[simp] theorem State.bwrite_fcode (s : State) (b : Byte) : (s.bwrite b).fcode = s.fcode := rfl
@[simp] theorem State.bwrite_rst (s : State) (b : Byte) : (s.bwrite b).rst = s.rst := rfl
@[simp] theorem State.bwrite_input (s : State) (b : Byte) : (s.bwrite b).input = s.input := rfl
@[simp] theorem State.bwrite_trace (s : State) (b : Byte) :
    (s.bwrite b).trace = s.trace ++ [.bwrite b s.snkAnswer] := rfl
@[simp] theorem State.bwrite_env (s : State) (b : Byte) :
    (s.bwrite b).env = s.env.wrote b := rfl

/-! `bclose` -/

@[simp] theorem State.bclose_mode (s : State) : (s.bclose).mode = s.mode := rfl
@[simp] theorem State.bclose_pv (s : State) : (s.bclose).pv = s.pv := rfl
@[simp] theorem State.bclose_pend (s : State) : (s.bclose).pend = s.pend := rfl
@[simp] theorem State.bclose_fcode (s : State) : (s.bclose).fcode = s.fcode := rfl
@[simp] theorem State.bclose_rst (s : State) : (s.bclose).rst = s.rst := rfl
@[simp] theorem State.bclose_input (s : State) : (s.bclose).input = s.input := rfl
@[simp] theorem State.bclose_trace (s : State) :
    (s.bclose).trace = s.trace ++ [.bclose s.closeAnswer] := rfl
@[simp] theorem State.bclose_env (s : State) :
    (s.bclose).env = s.env.closed := rfl

/-! `respond` -/

@[simp] theorem State.respond_mode (s : State) (st : St) (flag : Bool) (data : Byte) : (s.respond st flag data).mode = s.mode := rfl
@[simp] theorem State.respond_pv (s : State) (st : St) (flag : Bool) (data : Byte) : (s.respond st flag data).pv = s.pv := rfl
@[simp] theorem State.respond_pend (s : State) (st : St) (flag : Bool) (data : Byte) : (s.respond st flag data).pend = s.pend := rfl
@[simp] theorem State.respond_fcode (s : State) (st : St) (flag : Bool) (data : Byte) : (s.respond st flag data).fcode = s.fcode := rfl
@[simp] theorem State.respond_rst (s : State) (st : St) (flag : Bool) (data : Byte) : (s.respond st flag data).rst = s.rst := rfl
@[simp] theorem State.respond_input (s : State) (st : St) (flag : Bool) (data : Byte) : (s.respond st flag data).input = s.input := rfl
@[simp] theorem State.respond_trace (s : State) (st : St) (flag : Bool) (data : Byte) :
    (s.respond st flag data).trace = s.trace ++ [.rsp ⟨st, flag, data⟩] := rfl
@[simp] theorem State.respond_env (s : State) (st : St) (flag : Bool) (data : Byte) :
    (s.respond st flag data).env = s.env := rfl

/-! `raiseFault` -/

@[simp] theorem State.raiseFault_mode (s : State) (c : FaultCause) : (s.raiseFault c).mode = s.mode := rfl
@[simp] theorem State.raiseFault_pv (s : State) (c : FaultCause) : (s.raiseFault c).pv = s.pv := rfl
@[simp] theorem State.raiseFault_pend (s : State) (c : FaultCause) : (s.raiseFault c).pend = s.pend := rfl
@[simp] theorem State.raiseFault_fcode (s : State) (c : FaultCause) : (s.raiseFault c).fcode = some c := rfl
@[simp] theorem State.raiseFault_rst (s : State) (c : FaultCause) : (s.raiseFault c).rst = s.rst := rfl
@[simp] theorem State.raiseFault_input (s : State) (c : FaultCause) : (s.raiseFault c).input = s.input := rfl
@[simp] theorem State.raiseFault_trace (s : State) (c : FaultCause) :
    (s.raiseFault c).trace = s.trace ++ [.rsp ⟨.fault, false, fcodeByte (some c)⟩] := rfl
@[simp] theorem State.raiseFault_env (s : State) (c : FaultCause) :
    (s.raiseFault c).env = s.env := rfl

/-! `answerFaulted` -/

@[simp] theorem State.answerFaulted_mode (s : State) : (s.answerFaulted).mode = s.mode := rfl
@[simp] theorem State.answerFaulted_pv (s : State) : (s.answerFaulted).pv = s.pv := rfl
@[simp] theorem State.answerFaulted_pend (s : State) : (s.answerFaulted).pend = s.pend := rfl
@[simp] theorem State.answerFaulted_fcode (s : State) : (s.answerFaulted).fcode = s.fcode := rfl
@[simp] theorem State.answerFaulted_rst (s : State) : (s.answerFaulted).rst = s.rst := rfl
@[simp] theorem State.answerFaulted_input (s : State) : (s.answerFaulted).input = s.input := rfl
@[simp] theorem State.answerFaulted_trace (s : State) :
    (s.answerFaulted).trace = s.trace ++ [.rsp ⟨.fault, false, fcodeByte s.fcode⟩] := rfl
@[simp] theorem State.answerFaulted_env (s : State) :
    (s.answerFaulted).env = s.env := rfl

/-! `resetRegisters` -/

@[simp] theorem State.resetRegisters_mode (s : State) : (s.resetRegisters).mode = .idle := rfl
@[simp] theorem State.resetRegisters_pv (s : State) : (s.resetRegisters).pv = false := rfl
@[simp] theorem State.resetRegisters_pend (s : State) : (s.resetRegisters).pend = 0 := rfl
@[simp] theorem State.resetRegisters_fcode (s : State) : (s.resetRegisters).fcode = none := rfl
@[simp] theorem State.resetRegisters_rst (s : State) : (s.resetRegisters).rst = s.rst := rfl
@[simp] theorem State.resetRegisters_input (s : State) : (s.resetRegisters).input = s.input := rfl
@[simp] theorem State.resetRegisters_trace (s : State) :
    (s.resetRegisters).trace = s.trace := rfl
@[simp] theorem State.resetRegisters_env (s : State) :
    (s.resetRegisters).env = s.env := rfl

end Sys2Proof.Machine
end

