-- ==== Sys2Proof/Laws/Ops.lean ====
section
/-! SUPPORT. What the shared operations can do, said once each: scripts, the prologue, the illegal word, the second half of
CLOSE, and a step by the kind of input. -/

namespace Sys2Proof.Machine

/-! Scripts -/

@[simp] theorem Script.answer_cons {α : Type} (a : α) (as : List α) (after : Option α) (free : α) :
    (Script.mk (a :: as) after).answer free = a := rfl

@[simp] theorem Script.answer_after {α : Type} (a free : α) : (Script.mk [] (some a)).answer free = a := rfl

@[simp] theorem Script.answer_free {α : Type} (free : α) : (Script.mk [] none).answer free = free := rfl

@[simp] theorem Script.rest_mk {α : Type} (as : List α) (after : Option α) :
    (Script.mk as after).rest = ⟨as.tail, after⟩ := rfl

/-! The deterministic environment: what each request is answered (20_memory.md R57) -/

@[simp] theorem State.openAnswer_lists {s : State} {l : ListSide} (h : s.env = .lists l) : s.openAnswer = .ok := by
  simp [State.openAnswer, h]

@[simp] theorem State.snkAnswer_lists {s : State} {l : ListSide} (h : s.env = .lists l) : s.snkAnswer = .ok := by
  simp [State.snkAnswer, h]

@[simp] theorem State.closeAnswer_lists {s : State} {l : ListSide} (h : s.env = .lists l) : s.closeAnswer = .ok := by
  simp [State.closeAnswer, h]

theorem State.srcAnswer_lists {s : State} {l : ListSide} (h : s.env = .lists l) : s.srcAnswer = l.srcAnswer := by
  simp [State.srcAnswer, h]

/-- Everything BREAD can do there: the next byte of `S` and one place on, or EOD and nothing. -/
theorem ListSide.read_cases (l : ListSide) :
    (∃ b, l.source[l.cursor]? = some b ∧ l.srcAnswer = .byte b ∧ l.read = { l with cursor := l.cursor + 1 }) ∨
      (l.source.length ≤ l.cursor ∧ l.srcAnswer = .eod ∧ l.read = l) := by
  by_cases h : l.cursor < l.source.length
  · exact .inl ⟨l.source[l.cursor], by simp [h], by simp [ListSide.srcAnswer, h], by simp [ListSide.read, h]⟩
  · exact .inr ⟨by omega, by simp [ListSide.srcAnswer, List.getElem?_eq_none (by omega : l.source.length ≤ l.cursor)],
      by simp [ListSide.read, h]⟩

/-- What is left to read before a BREAD is the byte it answers, if any, and what is left after it (R51). -/
theorem ListSide.read_rest (l : ListSide) :
    l.source.drop l.cursor = (Event.readByte? (.bread l.srcAnswer)).toList ++ l.read.source.drop l.read.cursor := by
  rcases l.read_cases with ⟨b, hb, ha, hr⟩ | ⟨hl, ha, hr⟩
  · obtain ⟨hlt, he⟩ := List.getElem?_eq_some_iff.1 hb
    simp [ha, hr, Event.readByte?, ← he]
  · simp [ha, hr, Event.readByte?]

/-- The duty of R54: once BREAD answers EOD, so does the next one. -/
theorem ListSide.eod_stays {l : ListSide} (h : l.srcAnswer = .eod) : l.read.srcAnswer = .eod := by
  rcases l.read_cases with ⟨b, -, ha, -⟩ | ⟨-, -, hr⟩
  · rw [ha] at h; cases h
  · rwa [hr]

/-! The prologue -/

@[simp] theorem State.prologue_of_none {s : State} (h : s.fcode = none) (body : State) : s.prologue body = body := by
  simp [State.prologue, h]

@[simp] theorem State.prologue_of_some {s : State} {c : FaultCause} (h : s.fcode = some c) (body : State) :
    s.prologue body = s.answerFaulted := by
  simp [State.prologue, h]

/-- Everything the prologue can do. -/
theorem State.prologue_cases (s body : State) :
    (s.fcode = none ∧ s.prologue body = body) ∨ (∃ c, s.fcode = some c ∧ s.prologue body = s.answerFaulted) := by
  cases h : s.fcode with
  | none => exact .inl ⟨rfl, State.prologue_of_none h body⟩
  | some c => exact .inr ⟨c, rfl, State.prologue_of_some h body⟩

/-! RST -/

@[simp] theorem State.underRst_of_released {s : State} (h : s.rst = false) : s.underRst = s := by
  simp [State.underRst, h]

@[simp] theorem State.underRst_of_asserted {s : State} (h : s.rst = true) : s.underRst = s.resetRegisters := by
  simp [State.underRst, h]

/-! A step, by the kind of input -/

theorem step_waiting {s : State} (h : s.input = []) : step s = .next s.underRst := by
  simp only [step, h]

theorem step_word_under_rst {s : State} {w : CmdWord} {rest : List HostInput} (h : s.input = .cmd w :: rest)
    (hr : s.rst = true) : step s = .next { s.resetRegisters with input := rest } := by
  simp only [step, h, hr, if_true, State.underRst_of_asserted hr]

theorem step_word_accepted {s : State} {w : CmdWord} {rest : List HostInput} (h : s.input = .cmd w :: rest)
    (hr : s.rst = false) : step s = acceptWord w { s with input := rest } := by
  simp [step, h, hr]

theorem acceptWord_legal {w : CmdWord} {i : Instr} (h : decode w = .legal i) (s : State) :
    acceptWord w s = exec i s := by
  simp only [acceptWord, h]

theorem acceptWord_illegal {w : CmdWord} {why : Illegal} (h : decode w = .illegal why) (s : State) :
    acceptWord w s = .next s.illegalWord := by
  simp only [acceptWord, h]

end Sys2Proof.Machine
end

