-- ==== Sys2Proof/Laws/PerInstr.lean ====
section
/-! SUPPORT. Facts about every command as syntax, one lemma per constructor (LAWS.json). -/

namespace Sys2Proof.Laws.EncodeLegal

/-- The word of a command has legal fields (30_encoding.md R71 to R73). -/
def Statement (i : Instr) : Prop := (CmdFields.ofWord (encode i)).wellFormed = true

theorem openSession (dir : Direction) : Statement (.openSession dir) := by
  unfold Statement; cases dir <;> decide

theorem rdn : Statement .rdn := by unfold Statement; decide

theorem wrn (nib : Nibble) : Statement (.wrn nib) := by unfold Statement; revert nib; decide

theorem close : Statement .close := by unfold Statement; decide

theorem lenc (byte : Byte) : Statement (.lenc byte) := by unfold Statement; revert byte; decide

theorem ldec (idx : Nibble) : Statement (.ldec idx) := by unfold Statement; revert idx; decide

theorem stat : Statement .stat := by unfold Statement; decide

end Sys2Proof.Laws.EncodeLegal
end

