-- ==== Sys2Proof/Tests/Slice0.lean ====
section
/-! SUPPORT. Tests: words written out from the opcode table, ill-formed terms, one-step vectors of 95_test_vectors.md, and for
each statement with hypotheses a state that meets them. Expected values are the spec's; each test names its vector. -/

set_option maxRecDepth 20000

namespace Sys2Proof.Tests

open Sys2Proof.Machine

/-- Scripts that answer `o`, `r`, `w`, `c` to every BOPEN, BREAD, BWRITE, BCLOSE. -/
def scripts (o : OpenOutcome) (r : SrcAnswer) (w : SnkAnswer) (c : CloseAnswer) : Scripts :=
  { opens := ⟨[], some o⟩, reads := ⟨[], some r⟩, writes := ⟨[], some w⟩, closes := ⟨[], some c⟩, draws := 0 }

/-- Scripts that answer ok, and EOD to reads. -/
def scriptsOk : Scripts := scripts .ok .eod .ok .ok

/-- A byte side of such scripts. -/
def env (o : OpenOutcome) (r : SrcAnswer) (w : SnkAnswer) (c : CloseAnswer) : ByteSide := .scripted (scripts o r w c)

/-- The deterministic environment after earlier sessions: stale bytes and a cursor in mid-stream. -/
def used : ListSide :=
  { attached := [0x27, 0x30], later := [[0x12]], source := [0xFF, 0xFE, 0xFD], cursor := 1, sink := [0xAA] }

/-- A byte side that answers ok, and EOD to reads. -/
def envOk : ByteSide := .scripted scriptsOk

/-- A state with given registers and byte side, nothing waiting and nothing gone out. -/
def st (mode : Mode) (pv : Bool) (pend : Nibble) (fcode : Option FaultCause) (e : ByteSide := envOk) : State :=
  { State.reset with mode := mode, pv := pv, pend := pend, fcode := fcode, env := e }

/-- A state with given inputs waiting. -/
def withInput (s : State) (input : List HostInput) : State := { s with input := input }

/-- The state an outcome goes on to, if it does. -/
def ran : Host.Outcome State Fault Refusal → Option State
  | .next t => some t
  | .fault _ => none
  | .refused _ => none

/-- The events, MODE, PV, PEND and FCODE after a word is accepted. -/
def after (w : CmdWord) (s : State) : Option (List Event × Mode × Bool × Nibble × Option FaultCause) :=
  (ran (acceptWord w s)).map fun t => (t.trace, t.mode, t.pv, t.pend, t.fcode)

/-! ## Decoding: words written out bit by bit from the opcode table and 30_encoding.md R74 -/

theorem test_decode_open_read : decode 0b0001_0000_0000_0000#16 = .legal (.openSession .read) := by decide

theorem test_decode_open_write : decode 0b0001_0000_0000_0001#16 = .legal (.openSession .write) := by decide

theorem test_decode_rdn : decode 0b0010_0000_0000_0000#16 = .legal .rdn := by decide

theorem test_decode_wrn_15 : decode 0b0011_0000_0000_1111#16 = .legal (.wrn 0xF) := by decide

theorem test_decode_close : decode 0b0100_0000_0000_0000#16 = .legal .close := by decide

theorem test_decode_lenc_ff : decode 0b0101_0000_1111_1111#16 = .legal (.lenc 0xFF) := by decide

theorem test_decode_ldec_8 : decode 0b0110_0000_0000_1000#16 = .legal (.ldec 0x8) := by decide

theorem test_decode_stat : decode 0b0111_0000_0000_0000#16 = .legal .stat := by decide

theorem test_decode_dec_1 : decode 0x0000#16 = .illegal .reservedOp := by decide

theorem test_decode_dec_2 : decode 0x8000#16 = .illegal .reservedOp := by decide

theorem test_decode_dec_4 : decode 0x1100#16 = .illegal .reservedBits := by decide

theorem test_decode_dec_5 : decode 0x1002#16 = .illegal .argument := by decide

theorem test_decode_dec_6 : decode 0x2001#16 = .illegal .argument := by decide

theorem test_decode_dec_7 : decode 0x3010#16 = .illegal .argument := by decide

theorem test_decode_dec_8 : decode 0x40FF#16 = .illegal .argument := by decide

theorem test_decode_dec_9 : decode 0x6010#16 = .illegal .argument := by decide

theorem test_decode_dec_10 : decode 0x7080#16 = .illegal .argument := by decide

theorem test_decode_dec_11 : decode 0x5FFF#16 = .illegal .reservedBits := by decide

theorem test_encode_wrn : encode (.wrn 0x9) = 0x3009 := by decide

theorem test_table_word : decodeTableWord 16 0x6007 = some (.ldec 0x7) := by decide

/-- The first instruction after reset, for a word of each row: each goes on to a next state. -/
theorem test_runs_after_reset :
    [0x1000, 0x2000, 0x3000, 0x4000, 0x5000, 0x6000, 0x7000].all
      (fun w => (ran (step (State.reset.withFetchWord 16 w))).isSome) = true := by decide

/-! ## WellFormed: an ill-formed term for each check -/

theorem test_illformed_op : (CmdFields.mk 0x8 0 0).opLegal = false := by decide

theorem test_illformed_rsv : (CmdFields.mk 0x2 1 0).rsvLegal = false := by decide

theorem test_illformed_arg_open : (CmdFields.mk 0x1 0 0x02).argLegal = false := by decide

theorem test_illformed_arg_wrn : (CmdFields.mk 0x3 0 0x10).argLegal = false := by decide

theorem test_illformed_arg_stat : (CmdFields.mk 0x7 0 0x80).wellFormed = false := by decide

theorem test_illformed_asm_wrn : (AsmCmd.wrn 16).wellFormed = false := by decide

theorem test_illformed_asm_lenc : (AsmCmd.lenc 256).wellFormed = false := by decide

theorem test_illformed_asm_char : (AsmCmd.lencChar '\n').wellFormed = false := by decide

theorem test_illformed_asm_ldec : (AsmCmd.ldec 16).wellFormed = false := by decide

theorem test_illformed_asm_wrb : (AsmCmd.wrb 256).wellFormed = false := by decide

theorem test_illformed_asm_esc : (AsmCmd.esc 256).wellFormed = false := by decide

/-! ## The assembler (30_encoding.md R83, R84; 95_test_vectors.md P3) -/

theorem test_asm_words :
    [['O', 'P', 'E', 'N', ' ', 'R'], ['O', 'P', 'E', 'N', ' ', 'W'], ['R', 'D', 'N'], ['W', 'R', 'N', ' ', '#', '1', '0'],
     ['C', 'L', 'O', 'S', 'E'], ['L', 'E', 'N', 'C', ' ', '#', '0', 'x', '5', 'A'], ['L', 'E', 'N', 'C', ' ', '\'', 'Z', '\''],
     ['L', 'D', 'E', 'C', ' ', '#', '7'], ['S', 'T', 'A', 'T']].map (fun l => (parseLine l).bind assemble) =
    [some [0x1000#16], some [0x1001#16], some [0x2000#16], some [0x300A#16], some [0x4000#16], some [0x505A#16],
     some [0x505A#16], some [0x6007#16], some [0x7000#16]] := by decide

theorem test_asm_esc :
    (parseLine ['E', 'S', 'C', ' ', '#', '0', 'x', '5', 'A']).bind assemble = some [0x3000#16, 0x3005#16, 0x300A#16] := by
  decide

theorem test_asm_out_of_range : (parseLine ['W', 'R', 'N', ' ', '#', '1', '6']).bind assemble = none := by decide

/-! ## Codes and tables -/

/-- 95_test_vectors.md, the head: OK = 0x0xx, EOS = 0x4xx, OPENFAIL = 0x8xx, FAULT = 0xCxx. -/
theorem test_response_words :
    [Response.mk .ok true 0x27, ⟨.eos, false, 0⟩, ⟨.openFail, false, 0⟩, ⟨.fault, false, 0x05⟩].map Response.word =
      [0x127#12, 0x400#12, 0x800#12, 0xC05#12] := by decide

/-- LENC-2 to LENC-16 and LDEC-1 to LDEC-15: the map of 41_lut.md R124 (ASCII by R36, log 11). -/
theorem test_lenc_map :
    [0x20, 0x65, 0x74, 0x6E, 0x72, 0x6F, 0x61, 0x69, 0x73, 0x64, 0x6C, 0x68, 0x63, 0x66, 0x70].map clut.scan =
      codeIndices.map some := by decide

/-- 41_lut.md R124: 241 byte values miss. -/
theorem test_lenc_misses : ((List.range 256).filter fun n => (clut.scan (BitVec.ofNat 8 n)).isNone).length = 241 := by
  decide

/-- STAT-3, STAT-6, STAT-9, STAT-10. -/
theorem test_status_bytes :
    [statusOf .read true none, statusOf .write true (some .ioError), statusOf .read false (some .alreadyOpen),
     statusOf .write true (some .wrongDir)] = [0x05#8, 0x56#8, 0x31#8, 0x46#8] := by decide

/-- L1-7: nibbles 2, 7, 3 and the pad. -/
theorem test_pack_eat : packFormat (codeNibbles [0x65, 0x61, 0x74]) = [0x27#8, 0x30#8] := by decide

/-- L1-6: the one-byte files 0x00 and 0x05 decompress to nothing. -/
theorem test_truncated_escape : [[0x00#8], [0x05#8]].map (fun f => parseNibbles (unpackFormat f)) = [[], []] := by decide

/-! ## One step (95_test_vectors.md section 2) -/

/-- OPEN-2. -/
theorem test_open_2 :
    after 0x1001 (st .idle false 0 none) =
      some ([.bopen .write .ok, .rsp ⟨.ok, false, 0⟩], .write, false, 0, none) := by decide

/-- OPEN-3. -/
theorem test_open_3 :
    after 0x1000 (st .idle false 0 none (env .fail .eod .ok .ok)) =
      some ([.bopen .read .fail, .rsp ⟨.openFail, false, 0⟩], .idle, false, 0, none) := by decide

/-- RDN-1. -/
theorem test_rdn_1 :
    after 0x2000 (st .read false 0 none (env .ok (.byte 0x27) .ok .ok)) =
      some ([.bread (.byte 0x27), .rsp ⟨.ok, false, 0x02⟩], .read, true, 0x7, none) := by decide

/-- RDN-8. -/
theorem test_rdn_8 :
    after 0x2000 (st .read false 0 none (env .ok .ioerr .ok .ok)) =
      some ([.bread .ioerr, .rsp ⟨.fault, false, 5⟩], .read, false, 0, some .ioError) := by decide

/-- WRN-2. -/
theorem test_wrn_2 :
    after 0x3007 (st .write true 0x2 none) =
      some ([.bwrite 0x27 .ok, .rsp ⟨.ok, true, 0x27⟩], .write, false, 0x2, none) := by decide

/-- WRN-6. -/
theorem test_wrn_6 :
    after 0x300A (st .write true 0x5 none (env .ok .eod .ioerr .ok)) =
      some ([.bwrite 0x5A .ioerr, .rsp ⟨.fault, false, 5⟩], .write, true, 0x5, some .ioError) := by decide

/-- CLOSE-1. -/
theorem test_close_1 :
    after 0x4000 (st .write true 0x3 none) =
      some ([.bwrite 0x30 .ok, .bclose .ok, .rsp ⟨.ok, true, 0x30⟩], .idle, false, 0x3, none) := by decide

/-- CLOSE-7. -/
theorem test_close_7 :
    after 0x4000 (st .write true 0x3 none (env .ok .eod .ok .ioerr)) =
      some ([.bwrite 0x30 .ok, .bclose .ioerr, .rsp ⟨.fault, false, 5⟩], .write, true, 0x3, some .ioError) := by decide

/-- LENC-16. -/
theorem test_lenc_16 :
    after 0x5070 (st .read true 0x4 none) =
      some ([.rsp ⟨.ok, true, 0x0F⟩], .read, true, 0x4, none) := by decide

/-- LENC-25. -/
theorem test_lenc_25 :
    after 0x5065 (st .idle false 0 (some .notOpen)) =
      some ([.rsp ⟨.fault, false, 2⟩], .idle, false, 0, some .notOpen) := by decide

/-- LDEC-0. -/
theorem test_ldec_0 :
    after 0x6000 (st .write true 0x9 none) =
      some ([.rsp ⟨.ok, true, 0x00⟩], .write, true, 0x9, none) := by decide

/-- LDEC-7. -/
theorem test_ldec_7 :
    after 0x6007 (st .idle false 0 none) =
      some ([.rsp ⟨.ok, false, 0x61⟩], .idle, false, 0, none) := by decide

/-- STAT-6. -/
theorem test_stat_6 :
    after 0x7000 (st .write true 0x5 (some .ioError)) =
      some ([.rsp ⟨.ok, false, 0x56⟩], .write, true, 0x5, some .ioError) := by decide

/-- STAT-11. -/
theorem test_stat_11 :
    after 0x7001 (st .write true 0x5 (some .ioError)) =
      some ([.rsp ⟨.fault, false, 5⟩], .write, true, 0x5, some .ioError) := by decide

/-- PRI-1. -/
theorem test_pri_1 :
    after 0x2001 (st .idle false 0 none) =
      some ([.rsp ⟨.fault, false, 1⟩], .idle, false, 0, some .illegalCmd) := by decide

/-- PRI-6: RST after a fault; the byte side is not told (70_reset_and_hazards.md R194). -/
theorem test_rst :
    ran (step (withInput (st .write true 0x9 (some .wrongDir)) [.rst true])) =
      some { st .idle false 0 none with rst := true } := by decide

/-- 10_state.md R22: a word is ignored while RST is asserted. -/
theorem test_rst_ignores_cmd :
    ran (step (withInput { st .idle false 0 none with rst := true } [.cmd 0x7000])) =
      some { st .idle false 0 none with rst := true } := by decide

/-! ## Witnesses: states and operands that meet the hypotheses of each statement, clause by clause -/

theorem witness_DecodeEncodeRoundTrip :
    decode 0x300F = .legal (.wrn 0xF) := by decide

theorem witness_IllegalWordsFault_unfaulted :
    decode 0x1002 = .illegal .argument ∧ (st .idle false 0 none).fcode = none := by decide

theorem witness_IllegalWordsFault_faulted :
    decode 0x0FFF = .illegal .reservedOp ∧ (st .idle false 0 (some .notOpen)).fcode = some .notOpen := by decide

theorem witness_PseudoInstructionsExpand :
    0xFF ≤ 255 := by decide

theorem witness_ResetRegisterValues :
    (withInput (st .write true 0x9 (some .wrongDir)) [.rst true]).input = .rst true :: [] := by decide

theorem witness_RstHoldsBlock :
    { st .idle false 0 none with rst := true }.rst = true := by decide

theorem witness_FirstCommandAfterReset :
    (withInput (st .write true 0x9 (some .wrongDir)) [.rst true, .rst false, .cmd 0x7000]).input =
      .rst true :: .rst false :: .cmd 0x7000 :: [] := by decide

theorem witness_StepRunsDecodedCommand_legal :
    let s := withInput (st .idle false 0 none) [.cmd 0x50FF]
    s.rst = false ∧ s.input = .cmd 0x50FF :: [] ∧ decode 0x50FF = .legal (.lenc 0xFF) := by decide

theorem witness_StepRunsDecodedCommand_illegal :
    let s := withInput (st .idle false 0 none) [.cmd 0x5100]
    s.rst = false ∧ s.input = .cmd 0x5100 :: [] ∧ decode 0x5100 = .illegal .reservedBits := by decide

theorem witness_OpenStartsSession :
    let s := st .idle false 0 none
    s.fcode = none ∧ s.mode = .idle ∧ s.openAnswer = .ok := by decide

/-- The first BOPEN fails and the second is answered ok. -/
def envRetry : ByteSide := .scripted { scriptsOk with opens := ⟨[.fail], some .ok⟩ }

theorem witness_FailedOpenWritesNoState :
    let s := st .idle false 0 none envRetry
    s.fcode = none ∧ s.mode = .idle ∧ s.openAnswer = .fail ∧ 
      { s with env := (s.bopen .read).env }.openAnswer = .ok := by decide

theorem witness_OpenWhileOpenFaults_read :
    let s := st .read true 0xB none
    s.fcode = none ∧ s.mode ≠ .idle := by decide

theorem witness_OpenWhileOpenFaults_write :
    let s := st .write false 0 none
    s.fcode = none ∧ s.mode ≠ .idle := by decide

theorem witness_RdnReturnsPending_pending :
    let s := st .read true 0xF none
    s.fcode = none ∧ s.mode = .read ∧ s.pv = true := by decide

theorem witness_RdnReturnsPending_afterRead :
    let s := st .read false 0 none (env .ok (.byte 0xFF) .ok .ok)
    s.fcode = none ∧ s.mode = .read ∧ s.pv = false ∧ s.srcAnswer = .byte 0xFF := by decide

theorem witness_RdnSplitsByte :
    let s := st .read false 0 none (env .ok (.byte 0x00) .ok .ok)
    s.fcode = none ∧ s.mode = .read ∧ s.pv = false ∧ s.srcAnswer = .byte 0x00 := by decide

theorem witness_RdnEndOfStream :
    let s := st .read false 0 none
    s.fcode = none ∧ s.mode = .read ∧ s.pv = false ∧ s.srcAnswer = .eod ∧ 
      { s with env := s.bread.env }.srcAnswer = .eod := by decide

theorem witness_RdnReadErrorFaults :
    let s := st .read false 0 none (env .ok .ioerr .ok .ok)
    s.fcode = none ∧ s.mode = .read ∧ s.pv = false ∧ s.srcAnswer = .ioerr := by decide

theorem witness_RdnOutsideReadSessionFaults_write :
    let s := st .write true 0x3 none
    s.fcode = none ∧ s.mode = .write := by decide

theorem witness_RdnOutsideReadSessionFaults_idle :
    let s := st .idle false 0 none
    s.fcode = none ∧ s.mode = .idle := by decide

theorem witness_RdnStreamSequence :
    let q := { scriptsOk with reads := ⟨[.byte 0xA5, .byte 0x3C, .eod], none⟩ }
    let s := st .read false 0 none (.scripted q)
    s.fcode = none ∧ s.mode = .read ∧ s.pv = false ∧ s.env = .scripted q ∧
      q.reads.answers = [0xA5#8, 0x3C#8].map .byte ++ List.replicate 1 .eod ++ [] := by decide

/-- R57: OPEN R takes the stream attached and starts its cursor at 0, whatever the last session left unread. -/
theorem test_r57_open_read_starts_at_zero :
    (ran (exec (.openSession .read) (st .idle false 0 none (.lists used)))).map State.env =
      some (.lists { attached := [0x12], later := [], source := [0x27, 0x30], cursor := 0, sink := [0xAA] }) := by decide

/-- R57: OPEN W starts with an empty stream. -/
theorem test_r57_open_write_starts_empty :
    (ran (exec (.openSession .write) (st .idle false 0 none (.lists used)))).map State.env =
      some (.lists { used with sink := [] }) := by decide

/-- R57: RDN at cursor 1 reads `S[1]` = 0xFE and moves on; at the end of `S` it answers EOS and stays. -/
theorem test_r57_read :
    (ran (exec .rdn (st .read false 0 none (.lists used)))).map (fun t => (t.env, t.trace)) =
      some (.lists { used with cursor := 2 }, [.bread (.byte 0xFE), .rsp ⟨.ok, false, 0x0F⟩]) ∧
    (ran (exec .rdn (st .read false 0 none (.lists { used with cursor := 3 })))).map (fun t => (t.env, t.trace)) =
      some (.lists { used with cursor := 3 }, [.bread .eod, .rsp ⟨.eos, false, 0x00⟩]) := by decide

/-- R57: BWRITE appends. -/
theorem test_r57_write :
    (ran (exec (.wrn 0x7) (st .write true 0x2 none (.lists used)))).map (fun t => (t.env, t.trace)) =
      some (.lists { used with sink := [0xAA, 0x27] }, [.bwrite 0x27 .ok, .rsp ⟨.ok, true, 0x27⟩]) := by decide

theorem witness_RdnStreamSequence_lists :
    let s := st .idle false 0 none (.lists used)
    s.fcode = none ∧ s.mode = .idle ∧ s.env = .lists used := by decide

theorem witness_WrnBuffersFirstNibble :
    let s := st .write false 0xF none
    s.fcode = none ∧ s.mode = .write ∧ s.pv = false := by decide

theorem witness_WrnSendsPair_sends :
    let s := st .write true 0xF none
    s.fcode = none ∧ s.mode = .write ∧ s.pv = true ∧ s.snkAnswer = .ok := by decide

theorem witness_WrnSendsPair_buffers :
    let s := st .write false 0 none
    s.fcode = none ∧ s.mode = .write ∧ s.pv = false := by decide

theorem witness_WrnWriteErrorFaults :
    let s := st .write true 0x5 none (env .ok .eod .ioerr .ok)
    s.fcode = none ∧ s.mode = .write ∧ s.pv = true ∧ s.snkAnswer = .ioerr := by decide

theorem witness_WrnOutsideWriteSessionFaults_read :
    let s := st .read true 0x7 none
    s.fcode = none ∧ s.mode = .read := by decide

theorem witness_WrnOutsideWriteSessionFaults_idle :
    let s := st .idle false 0 none
    s.fcode = none ∧ s.mode = .idle := by decide

theorem witness_WrnSequencePacks :
    let q := { scriptsOk with writes := ⟨[.ok], none⟩ }
    let s := st .write false 0 none (.scripted q)
    s.fcode = none ∧ s.mode = .write ∧ s.pv = false ∧ s.env = .scripted q ∧
      q.writes.answers = List.replicate ([0x1#4, 0x2#4, 0x3#4].length / 2) .ok ++ [] ∧ 
      [0x1#4, 0x2#4, 0x3#4].length % 2 = 1 := by decide

theorem witness_WrnSequencePacks_lists :
    let s := st .idle false 0 none (.lists used)
    s.fcode = none ∧ s.mode = .idle ∧ s.env = .lists used := by decide

theorem witness_CloseWithoutFlush_read_ok :
    let s := st .read true 0x7 none
    s.fcode = none ∧ s.mode = .read ∧ s.closeAnswer = .ok := by decide

theorem witness_CloseWithoutFlush_write_ioerr :
    let s := st .write false 0x7 none (env .ok .eod .ok .ioerr)
    s.fcode = none ∧ s.mode = .write ∧ s.pv = false ∧ s.closeAnswer = .ioerr := by decide

theorem witness_CloseFlushesPending :
    let s := st .write true 0x0 none
    (0x00#8) = s.pend ++ 0#4 ∧ s.fcode = none ∧ s.mode = .write ∧ s.pv = true ∧ s.snkAnswer = .ok ∧ 
      (s.bwrite 0x00).closeAnswer = .ok := by decide

theorem witness_CloseErrorKeepsState_unflushed :
    let s := st .read false 0 none (env .ok .eod .ok .ioerr)
    s.fcode = none ∧ s.mode = .read ∧ s.closeAnswer = .ioerr := by decide

theorem witness_CloseErrorKeepsState_flushed :
    let s := st .write true 0x3 none (env .ok .eod .ok .ioerr)
    s.fcode = none ∧ s.mode = .write ∧ s.pv = true ∧ s.snkAnswer = .ok ∧ 
      (s.bwrite (s.pend ++ 0#4)).closeAnswer = .ioerr := by decide

theorem witness_FlushErrorIssuesNoClose :
    let s := st .write true 0x3 none (env .ok .eod .ioerr .ok)
    s.fcode = none ∧ s.mode = .write ∧ s.pv = true ∧ s.snkAnswer = .ioerr := by decide

theorem witness_CloseWithoutSessionFaults_idle :
    let s := st .idle false 0 none
    s.fcode = none ∧ s.mode = .idle := by decide

theorem witness_CloseWithoutSessionFaults_second :
    ∃ t, Answers (exec .close (st .read true 0x7 none)) (st .read true 0x7 none) t [.bclose .ok] ⟨.ok, false, 0⟩ ∧
      Response.st ⟨.ok, false, 0⟩ = .ok := 
  ⟨_, ⟨rfl, rfl, by decide⟩, rfl⟩

theorem witness_SessionLifeCycle :
    let s := st .write true 0xF none
    s.fcode = none := by decide

theorem witness_OnlyOpenAndCloseMoveMode_reset :
    ∃ t, step (withInput (st .write true 0x9 none) [.rst true]) = .next t ∧ t.mode ≠ (st .write true 0x9 none).mode := ⟨_, rfl, by decide⟩

theorem witness_OnlyOpenAndCloseMoveMode_open :
    ∃ t, step (withInput (st .idle false 0 none) [.cmd 0x1001]) = .next t ∧ t.mode ≠ (st .idle false 0 none).mode := ⟨_, rfl, by decide⟩

theorem witness_OnlyOpenAndCloseMoveMode_close :
    ∃ t, step (withInput (st .read true 0xB none) [.cmd 0x4000]) = .next t ∧ t.mode ≠ (st .read true 0xB none).mode := ⟨_, rfl, by decide⟩

theorem witness_LencAnswersIndex_hit :
    (st .idle false 0 none).fcode = none ∧ (0xF#4) ≠ 0 ∧ clut.entry 0xF = 0x70 := by decide

theorem witness_LencAnswersIndex_miss :
    (st .idle false 0 none).fcode = none ∧ ∀ i : Nibble, i ≠ 0 → clut.entry i ≠ 0x71 := by decide

theorem witness_LencMissesZeroByte :
    (st .read true 0x1 none).fcode = none := by decide

theorem witness_LdecReadsTable :
    (st .idle false 0 none).fcode = none ∧ (0x0#4) = 0 ∧ (0xF#4) ≠ 0 := by decide

theorem witness_LookupsTouchNoStreamState :
    ((∃ b, Instr.lenc 0x65 = .lenc b) ∨ (∃ k, Instr.lenc 0x65 = .ldec k)) ∧
      ((∃ b, Instr.ldec 0x0 = .lenc b) ∨ (∃ k, Instr.ldec 0x0 = .ldec k)) ∧ (st .write true 0xF none).fcode = none := 
  ⟨.inl ⟨_, rfl⟩, .inr ⟨_, rfl⟩, rfl⟩

theorem witness_LookupsAreInverse :
    (st .idle false 0 none).fcode = none ∧ (0x1#4) ≠ 0 ∧ clut.entry 0x1 = 0x20 := by decide

theorem witness_LookupsInverseForAnyTable :
    ∀ i j : Nibble, i ≠ 0 → j ≠ 0 → clut.entry i = clut.entry j → i = j := by decide

theorem witness_CodeTableDistinct :
    (0x1#4) ≠ 0 ∧ (0xF#4) ≠ 0 := by decide

theorem witness_StatRunsWhenFaulted :
    (st .write true 0x5 (some .ioError)).fcode = some .ioError ∧ Instr.close ≠ .stat ∧
      (0x7001#16).toNat / 4096 = 7 ∧ (0x7001#16) ≠ 0x7000 := by decide

theorem witness_FaultEntryWritesOnlyFcode :
    (st .write true 0x3 none).fcode = none ∧
      (ran (acceptWord 0x2000 (st .write true 0x3 none))).map State.fcode = some (some .wrongDir) := by decide

theorem witness_FaultedBlockAbsorbs_word :
    (st .write true 0x3 (some .ioError)).fcode = some .ioError ∧ decode 0x4000 ≠ .legal .stat := by decide

theorem witness_FaultedBlockAbsorbs_step :
    ∃ t, step (withInput (st .write true 0x3 (some .ioError)) [.cmd 0x7000]) = .next t ∧
      (withInput (st .write true 0x3 (some .ioError)) [.cmd 0x7000]).fcode = some .ioError := ⟨_, rfl, rfl⟩

theorem witness_FcodeRecordsFirstFault_fault :
    ∃ t, step (withInput (st .idle false 0 none) [.cmd 0x0000]) = .next t ∧ t.fcode ≠ none := ⟨_, rfl, by decide⟩

theorem witness_FcodeRecordsFirstFault_reset :
    ∃ t, step (withInput (st .idle false 0 (some .notOpen)) [.rst true]) = .next t ∧ t.fcode ≠ some .notOpen := 
  ⟨_, rfl, by decide⟩

theorem witness_StepKeepsInv :
    (withInput (st .read true 0xB none) [.cmd 0x4000]).Inv ∧
      ∃ t, step (withInput (st .read true 0xB none) [.cmd 0x4000]) = .next t := ⟨by decide, _, rfl⟩

theorem witness_IdlePendIsUnobservable :
    (withInput (st .write false 0x1 none) [.cmd 0x3005]).SameButIdlePend (withInput (st .write false 0x2 none) [.cmd 0x3005]) ∧
      withInput (st .write false 0x1 none) [.cmd 0x3005] ≠ withInput (st .write false 0x2 none) [.cmd 0x3005] ∧
      ∃ t, step (withInput (st .write false 0x1 none) [.cmd 0x3005]) = .next t := 
  ⟨by decide, by decide, _, rfl⟩

theorem witness_StepOnlyAppends_scripted :
    ∃ t, step (withInput (st .write true 0x1 none (.scripted { scriptsOk with writes := ⟨[.ok, .ioerr], none⟩ }))
      [.cmd 0x3005]) = .next t :=
  ⟨_, rfl⟩

theorem witness_StepOnlyAppends_lists :
    ∃ t, step (withInput (st .read false 0 none (.lists used)) [.cmd 0x2000]) = .next t := ⟨_, rfl⟩

theorem witness_StepOnlyAppends_opens :
    (∃ t, step (withInput (st .idle false 0 none (.lists used)) [.cmd 0x1000]) = .next t) ∧
      ∃ t, step (withInput (st .idle false 0 none (.lists used)) [.cmd 0x1001]) = .next t := ⟨⟨_, rfl⟩, _, rfl⟩

theorem witness_CompressWritesPackedFormat_scripted :
    (st .idle false 0 none).Ready ∧ (st .idle false 0 none).ByteSideOk := ⟨by decide, rfl, rfl, rfl⟩

theorem witness_CompressWritesPackedFormat_lists :
    (st .idle false 0 none (.lists used)).Ready ∧ (st .idle false 0 none (.lists used)).ByteSideOk ∧
      (st .idle false 0 none (.lists used)).env = .lists used := ⟨by decide, trivial, rfl⟩

theorem witness_DecompressParsesFile_scripted :
    let s := st .idle false 0 none (.scripted { scriptsOk with reads := ⟨[.byte 0x27], some .eod⟩ })
    s.Ready ∧ s.Serves [0x27] ∧ 2 * [0x27#8].length < 3 := ⟨by decide, ⟨rfl, rfl, rfl⟩, by decide⟩

theorem witness_DecompressParsesFile_lists :
    let s := st .idle false 0 none (.lists used)
    s.Ready ∧ s.Serves [0x27, 0x30] ∧ 2 * [0x27#8, 0x30#8].length < 5 ∧ s.env = .lists used :=
  ⟨by decide, rfl, by decide, rfl⟩

theorem witness_CompressDecompressRoundTrip_sent :
    (st .idle false 0 none).Ready ∧ (st .idle false 0 none).ByteSideOk ∧
      (compress [0x65] (st .idle false 0 none)).state.sentBytes = (st .idle false 0 none).sentBytes ++ [0x20] ∧
      (st .idle false 0 none (.ofFile [0x20])).Ready ∧
      (st .idle false 0 none (.ofFile [0x20])).Serves [0x20] ∧ 2 * [0x20#8].length < 3 :=
  ⟨by decide, ⟨rfl, rfl, rfl⟩, by decide, by decide, rfl, by decide⟩

theorem witness_CompressDecompressRoundTrip_lists :
    (st .idle false 0 none (.lists used)).Ready ∧
      (compress [0x65] (st .idle false 0 none (.lists used))).state.env = .lists { used with sink := [0x20] } ∧
      (st .idle false 0 none (.ofFile [0x20])).Ready ∧
      (st .idle false 0 none (.ofFile [0x20])).Serves [0x20] ∧ 2 * [0x20#8].length < 3 :=
  ⟨by decide, by decide, by decide, rfl, by decide⟩

theorem witness_CompressedSize :
    (st .idle false 0 none).Ready ∧ (st .idle false 0 none).ByteSideOk := ⟨by decide, rfl, rfl, rfl⟩

end Sys2Proof.Tests
end

/-! PROOFS. The obligations of 10_state.md. The shared layer comes first: `WordEffect` lists every outcome of an accepted
word, `step_cases` every outcome of a step; the claims about registers are read off those lists. -/

/-! ## What an accepted word can do -/

namespace Sys2Proof.Machine

/-- The outcomes of accepting a word that decodes to `d` in the state `s`, each with the conditions that select it and the
next state it gives (60_exceptions.md R162; 40_stream.md, 41_lut.md, 42_status.md case by case). `acceptWord_effect` says
that `acceptWord` does nothing else. -/
inductive WordEffect (s : State) : Decoded → State → Prop
  /-- A faulted block answers FAULT to everything but STAT (R164). -/
  | absorbed {d : Decoded} {c : FaultCause} (hd : d ≠ .legal .stat) (hf : s.fcode = some c) :
      WordEffect s d s.answerFaulted
  /-- R81. -/
  | illegal {why : Illegal} (hf : s.fcode = none) : WordEffect s (.illegal why) (s.raiseFault .illegalCmd)
  /-- R91. -/
  | openFails {dir : Direction} (hf : s.fcode = none) (hm : s.mode = .idle) (ha : s.openAnswer = .fail) :
      WordEffect s (.legal (.openSession dir)) ((s.bopen dir).respond .openFail false 0x00)
  /-- R92. -/
  | opens {dir : Direction} (hf : s.fcode = none) (hm : s.mode = .idle) (ha : s.openAnswer = .ok) :
      WordEffect s (.legal (.openSession dir))
        ({ s.bopen dir with mode := modeOf dir, pv := false }.respond .ok false 0x00)
  /-- R93. -/
  | openTwice {dir : Direction} (hf : s.fcode = none) (hm : s.mode ≠ .idle) :
      WordEffect s (.legal (.openSession dir)) (s.raiseFault .alreadyOpen)
  /-- R100. -/
  | rdnNotOpen (hf : s.fcode = none) (hm : s.mode = .idle) : WordEffect s (.legal .rdn) (s.raiseFault .notOpen)
  /-- R100. -/
  | rdnWrongDir (hf : s.fcode = none) (hm : s.mode = .write) : WordEffect s (.legal .rdn) (s.raiseFault .wrongDir)
  /-- R95. -/
  | rdnPending (hf : s.fcode = none) (hm : s.mode = .read) (hpv : s.pv = true) :
      WordEffect s (.legal .rdn) ({ s with pv := false }.respond .ok false (zextNibble s.pend))
  /-- R96. -/
  | rdnByte {b : Byte} (hf : s.fcode = none) (hm : s.mode = .read) (hpv : s.pv = false) (ha : s.srcAnswer = .byte b) :
      WordEffect s (.legal .rdn)
        ({ s.bread with pend := lowNibble b, pv := true }.respond .ok false (zextNibble (highNibble b)))
  /-- R97. -/
  | rdnEos (hf : s.fcode = none) (hm : s.mode = .read) (hpv : s.pv = false) (ha : s.srcAnswer = .eod) :
      WordEffect s (.legal .rdn) (s.bread.respond .eos false 0x00)
  /-- R98. -/
  | rdnIoErr (hf : s.fcode = none) (hm : s.mode = .read) (hpv : s.pv = false) (ha : s.srcAnswer = .ioerr) :
      WordEffect s (.legal .rdn) (s.bread.raiseFault .ioError)
  /-- R107. -/
  | wrnNotOpen {n : Nibble} (hf : s.fcode = none) (hm : s.mode = .idle) :
      WordEffect s (.legal (.wrn n)) (s.raiseFault .notOpen)
  /-- R107. -/
  | wrnWrongDir {n : Nibble} (hf : s.fcode = none) (hm : s.mode = .read) :
      WordEffect s (.legal (.wrn n)) (s.raiseFault .wrongDir)
  /-- R102. -/
  | wrnBuffers {n : Nibble} (hf : s.fcode = none) (hm : s.mode = .write) (hpv : s.pv = false) :
      WordEffect s (.legal (.wrn n)) ({ s with pend := n, pv := true }.respond .ok false 0x00)
  /-- R103, R104. -/
  | wrnSends {n : Nibble} (hf : s.fcode = none) (hm : s.mode = .write) (hpv : s.pv = true) (ha : s.snkAnswer = .ok) :
      WordEffect s (.legal (.wrn n))
        ({ s.bwrite (packNibbles s.pend n) with pv := false }.respond .ok true (packNibbles s.pend n))
  /-- R106. -/
  | wrnIoErr {n : Nibble} (hf : s.fcode = none) (hm : s.mode = .write) (hpv : s.pv = true) (ha : s.snkAnswer = .ioerr) :
      WordEffect s (.legal (.wrn n)) ((s.bwrite (packNibbles s.pend n)).raiseFault .ioError)
  /-- R115. -/
  | closeNotOpen (hf : s.fcode = none) (hm : s.mode = .idle) : WordEffect s (.legal .close) (s.raiseFault .notOpen)
  /-- R109, R113, R114: nothing to flush. -/
  | closes (hf : s.fcode = none) (hm : s.mode = .read ∨ s.mode = .write ∧ s.pv = false) (ha : s.closeAnswer = .ok) :
      WordEffect s (.legal .close) ({ s.bclose with mode := .idle, pv := false }.respond .ok false 0x00)
  /-- R110: nothing to flush. -/
  | closeIoErr (hf : s.fcode = none) (hm : s.mode = .read ∨ s.mode = .write ∧ s.pv = false)
      (ha : s.closeAnswer = .ioerr) : WordEffect s (.legal .close) (s.bclose.raiseFault .ioError)
  /-- R112, R114: the pending nibble is flushed with the pad. -/
  | flushCloses (hf : s.fcode = none) (hm : s.mode = .write) (hpv : s.pv = true) (hw : s.snkAnswer = .ok)
      (ha : (s.bwrite (packNibbles s.pend padNibble)).closeAnswer = .ok) :
      WordEffect s (.legal .close)
        ({ (s.bwrite (packNibbles s.pend padNibble)).bclose with mode := .idle, pv := false }.respond .ok true
          (packNibbles s.pend padNibble))
  /-- R110, after a flush. -/
  | flushCloseIoErr (hf : s.fcode = none) (hm : s.mode = .write) (hpv : s.pv = true) (hw : s.snkAnswer = .ok)
      (ha : (s.bwrite (packNibbles s.pend padNibble)).closeAnswer = .ioerr) :
      WordEffect s (.legal .close) ((s.bwrite (packNibbles s.pend padNibble)).bclose.raiseFault .ioError)
  /-- R111. -/
  | flushIoErr (hf : s.fcode = none) (hm : s.mode = .write) (hpv : s.pv = true) (hw : s.snkAnswer = .ioerr) :
      WordEffect s (.legal .close) ((s.bwrite (packNibbles s.pend padNibble)).raiseFault .ioError)
  /-- R122. -/
  | lencHit {b : Byte} {i : Nibble} (hf : s.fcode = none) (hi : clut.scan b = some i) :
      WordEffect s (.legal (.lenc b)) (s.respond .ok true (zextNibble i))
  /-- R122. -/
  | lencMiss {b : Byte} (hf : s.fcode = none) (hi : clut.scan b = none) :
      WordEffect s (.legal (.lenc b)) (s.respond .ok false 0x00)
  /-- R126, R127. -/
  | ldec {i : Nibble} (hf : s.fcode = none) :
      WordEffect s (.legal (.ldec i)) (s.respond .ok (decide (i = escIdx)) (clut.entry i))
  /-- R135, R136: faulted or not. -/
  | stat : WordEffect s (.legal .stat) (s.respond .ok false (statusByte s))

/-- Behind the prologue only the unfaulted case is left to a command. -/
theorem WordEffect.prologue {s body : State} {d : Decoded} (hd : d ≠ .legal .stat)
    (h : s.fcode = none → WordEffect s d body) : WordEffect s d (s.prologue body) := by
  rcases s.prologue_cases body with ⟨hf, hp⟩ | ⟨c, hf, hp⟩ <;> rw [hp]
  · exact h hf
  · exact .absorbed hd hf

/-- CLOSE with nothing to flush. -/
theorem WordEffect.endSession {s : State} (hf : s.fcode = none) (hm : s.mode = .read ∨ s.mode = .write ∧ s.pv = false) :
    WordEffect s (.legal .close) (s.endSession false 0x00) := by
  unfold State.endSession
  cases ha : s.closeAnswer with
  | ok => exact .closes hf hm ha
  | ioerr => exact .closeIoErr hf hm ha

/-- CLOSE once the pending nibble has been flushed. -/
theorem WordEffect.flushed_endSession {s : State} (hf : s.fcode = none) (hm : s.mode = .write) (hpv : s.pv = true)
    (hw : s.snkAnswer = .ok) :
    WordEffect s (.legal .close)
      ((s.bwrite (packNibbles s.pend padNibble)).endSession true (packNibbles s.pend padNibble)) := by
  unfold State.endSession
  cases ha : (s.bwrite (packNibbles s.pend padNibble)).closeAnswer with
  | ok => exact .flushCloses hf hm hpv hw ha
  | ioerr => exact .flushCloseIoErr hf hm hpv hw ha

theorem execOpen_effect (dir : Direction) (s : State) :
    ∃ t, execOpen dir s = .next t ∧ WordEffect s (.legal (.openSession dir)) t := by
  refine ⟨_, rfl, .prologue nofun fun hf => ?_⟩
  cases hm : s.mode with
  | idle =>
    cases ha : s.openAnswer with
    | ok => exact .opens hf hm ha
    | fail => exact .openFails hf hm ha
  | read | write => exact .openTwice hf (by simp [hm])

theorem execRdn_effect (s : State) : ∃ t, execRdn s = .next t ∧ WordEffect s (.legal .rdn) t := by
  refine ⟨_, rfl, .prologue nofun fun hf => ?_⟩
  split
  next hm => exact .rdnNotOpen hf hm
  next hm => exact .rdnWrongDir hf hm
  next hm =>
    cases hpv : s.pv with
    | true => exact .rdnPending hf hm hpv
    | false =>
      cases ha : s.srcAnswer with
      | byte b => exact .rdnByte hf hm hpv ha
      | eod => exact .rdnEos hf hm hpv ha
      | ioerr => exact .rdnIoErr hf hm hpv ha

theorem execWrn_effect (n : Nibble) (s : State) : ∃ t, execWrn n s = .next t ∧ WordEffect s (.legal (.wrn n)) t := by
  refine ⟨_, rfl, .prologue nofun fun hf => ?_⟩
  split
  next hm => exact .wrnNotOpen hf hm
  next hm => exact .wrnWrongDir hf hm
  next hm =>
    cases hpv : s.pv with
    | false => exact .wrnBuffers hf hm hpv
    | true =>
      cases ha : s.snkAnswer with
      | ok => exact .wrnSends hf hm hpv ha
      | ioerr => exact .wrnIoErr hf hm hpv ha

theorem execClose_effect (s : State) : ∃ t, execClose s = .next t ∧ WordEffect s (.legal .close) t := by
  refine ⟨_, rfl, .prologue nofun fun hf => ?_⟩
  cases hm : s.mode with
  | idle => exact .closeNotOpen hf hm
  | read => exact .endSession hf (.inl hm)
  | write =>
    cases hpv : s.pv with
    | false => exact .endSession hf (.inr ⟨hm, hpv⟩)
    | true =>
      cases hw : s.snkAnswer with
      | ok => exact .flushed_endSession hf hm hpv hw
      | ioerr => exact .flushIoErr hf hm hpv hw

theorem execLenc_effect (b : Byte) (s : State) : ∃ t, execLenc b s = .next t ∧ WordEffect s (.legal (.lenc b)) t := by
  refine ⟨_, rfl, .prologue nofun fun hf => ?_⟩
  cases hi : clut.scan b with
  | some i => exact .lencHit hf hi
  | none => exact .lencMiss hf hi

/-- Every command goes on to a next state, and that is one of the listed outcomes. -/
theorem exec_effect (i : Instr) (s : State) : ∃ t, exec i s = .next t ∧ WordEffect s (.legal i) t := by
  cases i with
  | openSession dir => exact execOpen_effect dir s
  | rdn => exact execRdn_effect s
  | wrn n => exact execWrn_effect n s
  | close => exact execClose_effect s
  | lenc b => exact execLenc_effect b s
  | ldec i => exact ⟨_, rfl, .prologue nofun .ldec⟩
  | stat => exact ⟨_, rfl, .stat⟩

/-- Every word, legal or not, gives one of the listed outcomes. -/
theorem acceptWord_effect (w : CmdWord) (s : State) :
    ∃ t, acceptWord w s = .next t ∧ WordEffect s (decode w) t := by
  cases hd : decode w with
  | legal i => rw [acceptWord_legal hd]; exact exec_effect i s
  | illegal why => exact ⟨_, acceptWord_illegal hd s, .prologue nofun .illegal⟩

theorem WordEffect.of_acceptWord {w : CmdWord} {s t : State} (h : acceptWord w s = .next t) :
    WordEffect s (decode w) t := by
  obtain ⟨t', ht', he⟩ := acceptWord_effect w s
  cases ht'.symm.trans h
  exact he

/-! The equations of OPEN and LENC where an answer or a lookup decides -/

section
variable {s : State} (hf : s.fcode = none)
include hf

theorem execOpen_ok {dir : Direction} (hm : s.mode = .idle) (ha : s.openAnswer = .ok) :
    execOpen dir s = .next ({ s.bopen dir with mode := modeOf dir, pv := false }.respond .ok false 0x00) := by
  simp [execOpen, hf, hm, ha]

theorem execOpen_fail {dir : Direction} (hm : s.mode = .idle) (ha : s.openAnswer = .fail) :
    execOpen dir s = .next ((s.bopen dir).respond .openFail false 0x00) := by
  simp [execOpen, hf, hm, ha]

theorem execLenc_hit {b : Byte} {i : Nibble} (hi : clut.scan b = some i) :
    execLenc b s = .next (s.respond .ok true (zextNibble i)) := by
  simp [execLenc, hf, hi]

theorem execLenc_miss {b : Byte} (hi : clut.scan b = none) :
    execLenc b s = .next (s.respond .ok false 0x00) := by
  simp [execLenc, hf, hi]

end

end Sys2Proof.Machine

/-! ## What an accepted word does to each register -/

namespace Sys2Proof.Machine

section
variable {s t : State} {d : Decoded}

theorem WordEffect.rst_eq (h : WordEffect s d t) : t.rst = s.rst := by cases h <;> rfl

/-- A word keeps MODE, or it is an OPEN that starts a session or a CLOSE that ends one (10_state.md R27). -/
theorem WordEffect.mode_cases (h : WordEffect s d t) :
    t.mode = s.mode ∨
      (s.mode = .idle ∧ ∃ dir, d = .legal (.openSession dir) ∧ t.mode = modeOf dir) ∨
      (s.mode ≠ .idle ∧ d = .legal .close ∧ t.mode = .idle) := by
  cases h with
  | opens _ hm => exact .inr (.inl ⟨hm, _, rfl, rfl⟩)
  | closes _ hm => exact .inr (.inr ⟨by rcases hm with hm | ⟨hm, -⟩ <;> simp [hm], rfl, rfl⟩)
  | flushCloses _ hm => exact .inr (.inr ⟨by simp [hm], rfl, rfl⟩)
  | _ => exact .inl rfl

/-- Only a word that leaves MODE at READ or WRITE makes a nibble pending (10_state.md R31). -/
theorem WordEffect.idle_pv (h : WordEffect s d t) (hs : s.mode = .idle → s.pv = false) (ht : t.mode = .idle) :
    t.pv = false := by
  cases h with
  | rdnByte _ hm => exact absurd (hm.symm.trans ht) nofun
  | wrnBuffers _ hm => exact absurd (hm.symm.trans ht) nofun
  | opens | closes | flushCloses | rdnPending | wrnSends => rfl
  | _ => exact hs ht

theorem State.raiseFault_getLast (s : State) (c : FaultCause) :
    (s.raiseFault c).trace.getLast? = some (.rsp ⟨.fault, false, fcodeByte (some c)⟩) := by
  simp

/-- A word keeps FCODE, or it is the first to fault and its last event is the FAULT response (10_state.md R32). -/
theorem WordEffect.fcode_cases (h : WordEffect s d t) :
    t.fcode = s.fcode ∨ (s.fcode = none ∧ ∃ r, t.trace.getLast? = some (.rsp r) ∧ r.st = .fault) := by
  cases h with
  | illegal hf | openTwice hf | rdnNotOpen hf | rdnWrongDir hf | rdnIoErr hf | wrnNotOpen hf | wrnWrongDir hf
  | wrnIoErr hf | closeNotOpen hf | closeIoErr hf | flushCloseIoErr hf | flushIoErr hf =>
    exact .inr ⟨hf, _, State.raiseFault_getLast .., rfl⟩
  | _ => exact .inl rfl

end

end Sys2Proof.Machine

/-! ## What a step can do -/

namespace Sys2Proof.Machine

theorem step_rst {s : State} {level : Bool} {rest : List HostInput} (h : s.input = .rst level :: rest) :
    step s = .next { { s with rst := s.rst || level, input := rest }.underRst with rst := level } := by
  simp only [step, h]

/-- A step with RST asserted resets the registers and drops the input it took; no more (10_state.md R22). -/
theorem step_of_resetNow {s : State} (h : s.ResetNow) :
    ∃ level, step s = .next { s.resetRegisters with rst := level, input := s.input.tail } := by
  match hi : s.input with
  | [] =>
    have hr : s.rst = true := by simpa [State.ResetNow, hi] using h
    exact ⟨s.rst, by rw [step_waiting hi, State.underRst_of_asserted hr, List.tail_nil, ← hi]; rfl⟩
  | .rst level :: rest =>
    have hr : (s.rst || level) = true := by simpa [State.ResetNow, hi] using h
    exact ⟨level, by rw [step_rst hi, State.underRst_of_asserted hr]; rfl⟩
  | .cmd w :: rest =>
    have hr : s.rst = true := by simpa [State.ResetNow, hi] using h
    exact ⟨s.rst, by rw [step_word_under_rst hi hr]; rfl⟩

/-- Everything a step can do: hold the registers at reset, take an input that changes no register, or accept a word. -/
theorem step_cases {s t : State} (h : step s = .next t) :
    (s.ResetNow ∧ ∃ level, t = { s.resetRegisters with rst := level, input := s.input.tail }) ∨
      (s.rst = false ∧ (∀ w, s.input.head? ≠ some (.cmd w)) ∧ t = { s with input := s.input.tail }) ∨
      ∃ w rest, s.rst = false ∧ s.input = .cmd w :: rest ∧ WordEffect { s with input := rest } (decode w) t := by
  by_cases hn : s.ResetNow
  · obtain ⟨level, hl⟩ := step_of_resetNow hn
    exact .inl ⟨hn, level, by cases hl.symm.trans h; rfl⟩
  · obtain ⟨hr, hh⟩ := not_or.1 hn
    rw [Bool.not_eq_true] at hr
    match hi : s.input with
    | [] =>
      rw [step_waiting hi, State.underRst_of_released hr] at h
      cases h
      exact .inr (.inl ⟨hr, by simp, by rw [List.tail_nil, ← hi]⟩)
    | .rst level :: rest =>
      obtain rfl : level = false := by simpa [hi] using hh
      rw [step_rst hi, State.underRst_of_released (by simp [hr])] at h
      cases h
      exact .inr (.inl ⟨hr, by simp, by rw [← hr]; rfl⟩)
    | .cmd w :: rest =>
      rw [step_word_accepted hi hr] at h
      exact .inr (.inr ⟨w, rest, hr, rfl, .of_acceptWord h⟩)

end Sys2Proof.Machine

/-! ## Invariants of the registers: O52, O36, O51 -/

namespace Sys2Proof.Machine

/-- Settles O52, by the three kinds of step: reset puts the registers where both clauses hold, an input without a word
changes no register, and a word leaves RST released and nothing pending in IDLE. -/
theorem stepKeepsInv : Obligations.StepKeepsInv := by
  intro s t hs h
  rcases step_cases h with ⟨-, level, rfl⟩ | ⟨-, -, rfl⟩ | ⟨w, rest, hr, -, he⟩
  · exact ⟨fun _ => rfl, fun _ => ⟨rfl, rfl, rfl, rfl⟩⟩
  · exact hs
  · exact ⟨he.idle_pv hs.1, fun ht => absurd (he.rst_eq.symm.trans ht) (by simp [hr])⟩

/-- Settles O36: outside reset MODE changes only by an accepted word, and of those only by OPEN and CLOSE. -/
theorem onlyOpenAndCloseMoveMode : Obligations.OnlyOpenAndCloseMoveMode := by
  intro s t h hne
  rcases step_cases h with ⟨hn, level, rfl⟩ | ⟨-, -, rfl⟩ | ⟨w, rest, -, hi, he⟩
  · exact .inl ⟨hn, rfl⟩
  · exact absurd rfl hne
  · right
    rcases he.mode_cases with hm | ⟨hm, dir, hd, ht⟩ | ⟨hm, hd, ht⟩
    · exact absurd hm hne
    · exact ⟨w, rest, _, hi, hd, .inl ⟨hm, dir, rfl, ht⟩⟩
    · exact ⟨w, rest, _, hi, hd, .inr ⟨hm, ht, rfl⟩⟩

/-- U14: no value of FCODE has one of the two codes that R32 leaves out. -/
theorem fcodeBits_ne_unused (f : Option FaultCause) : fcodeBits f ≠ 0b110 ∧ fcodeBits f ≠ 0b111 := by
  rcases f with _ | c
  · decide
  · cases c <;> decide

/-- Settles O51: outside reset FCODE changes only by an accepted word, and of those only by a first fault. -/
theorem fcodeRecordsFirstFault : Obligations.FcodeRecordsFirstFault := by
  refine ⟨by decide, fcodeBits_ne_unused, fun s t h hne => ?_⟩
  rcases step_cases h with ⟨hn, level, rfl⟩ | ⟨-, -, rfl⟩ | ⟨w, rest, -, hi, he⟩
  · exact .inl ⟨hn, rfl⟩
  · exact absurd rfl hne
  · rcases he.fcode_cases with hf | ⟨hf, hlast⟩
    · exact absurd hf hne
    · exact .inr ⟨hf, ⟨w, rest, hi⟩, hlast⟩

end Sys2Proof.Machine

/-! ## Reset: O11, O10 -/

namespace Sys2Proof.Machine

/-- Settles O11: with RST asserted every step is a reset step. -/
theorem rstHoldsBlock : Obligations.RstHoldsBlock := by
  intro s hr
  obtain ⟨level, hl⟩ := step_of_resetNow (.inl hr)
  exact ⟨_, hl, rfl, rfl, rfl, rfl, rfl, rfl⟩

/-- From the reset registers no command reads PEND or makes a nibble pending (10_state.md R29). -/
theorem exec_reset_pend (i : Instr) (p : Nibble) :
    ∃ t, exec i State.reset = .next t ∧ exec i { State.reset with pend := p } = .next { t with pend := p } ∧
      t.pv = false := by
  cases i with
  | openSession dir =>
    cases ha : State.reset.openAnswer with
    | ok => exact ⟨_, execOpen_ok rfl rfl ha, execOpen_ok rfl rfl ha, rfl⟩
    | fail => exact ⟨_, execOpen_fail rfl rfl ha, execOpen_fail rfl rfl ha, rfl⟩
  | lenc b =>
    cases hi : clut.scan b with
    | some i => exact ⟨_, execLenc_hit rfl hi, execLenc_hit rfl hi, rfl⟩
    | none => exact ⟨_, execLenc_miss rfl hi, execLenc_miss rfl hi, rfl⟩
  | rdn | wrn | close | ldec | stat => exact ⟨_, rfl, rfl, rfl⟩

/-- The same for every word, legal or not. -/
theorem acceptWord_reset_pend (w : CmdWord) (p : Nibble) :
    ∃ t, acceptWord w State.reset = .next t ∧
      acceptWord w { State.reset with pend := p } = .next { t with pend := p } ∧ t.pv = false := by
  cases hd : decode w with
  | legal i => simpa only [acceptWord_legal hd] using exec_reset_pend i p
  | illegal why => exact ⟨_, acceptWord_illegal hd _, acceptWord_illegal hd _, rfl⟩

/-- Settles O10: a step that raises RST is computed, and nothing reads the reset value of PEND. -/
theorem resetRegisterValues : Obligations.ResetRegisterValues := by
  refine ⟨⟨rfl, rfl, rfl, rfl⟩, fun s rest hi => ?_, fun w p => ?_⟩
  · rw [step_rst hi, State.underRst_of_asserted (Bool.or_true _)]
    rfl
  · obtain ⟨t, ht, hu, hpv⟩ := acceptWord_reset_pend w p
    exact ⟨t, _, ht, hu, rfl, fun h => absurd (hpv.symm.trans h) nofun⟩

end Sys2Proof.Machine

/-! ## The code table: O44, O45 -/

namespace Sys2Proof.Machine

/-- A fold that keeps the last match is a search from the end. -/
theorem foldl_lastMatch {α : Type} (p : α → Prop) [DecidablePred p] (l : List α) (found : Option α) :
    l.foldl (fun found i => if p i then some i else found) found = (l.reverse.find? fun i => decide (p i)).or found := by
  induction l generalizing found with
  | nil => rfl
  | cons i l ih =>
    rw [List.foldl_cons, ih, List.reverse_cons, List.find?_append, Option.or_assoc]
    by_cases hp : p i <;> simp [hp]

/-- The scan of 41_lut.md R121 as a search from index 15 down. -/
theorem CodeTable.scan_eq_find? (table : CodeTable) (b : Byte) :
    table.scan b = codeIndices.reverse.find? fun i => decide (table.entry i = b) := by
  rw [CodeTable.scan, foldl_lastMatch (fun i => table.entry i = b), Option.or_none]

/-- What the scan finds is an index other than the escape, and its entry is the byte. -/
theorem CodeTable.entry_of_scan {table : CodeTable} {b : Byte} {i : Nibble} (h : table.scan b = some i) :
    i ≠ 0 ∧ table.entry i = b := by
  rw [CodeTable.scan_eq_find?] at h
  exact ⟨(mem_codeIndices i).1 (List.mem_reverse.1 (List.mem_of_find?_eq_some h)), by simpa using List.find?_some h⟩

/-- The scan finds an index wherever an entry other than the escape's is the byte. -/
theorem CodeTable.scan_isSome {table : CodeTable} {b : Byte} {i : Nibble} (hi : i ≠ 0) (he : table.entry i = b) :
    (table.scan b).isSome := by
  rw [CodeTable.scan_eq_find?, List.find?_isSome]
  exact ⟨i, List.mem_reverse.2 ((mem_codeIndices i).2 hi), by simpa using he⟩

/-- Settles O44: the scan finds some index of the byte, and distinctness leaves only one. -/
theorem lookupsInverseForAnyTable : Obligations.LookupsInverseForAnyTable := by
  intro table hdistinct b i
  refine ⟨CodeTable.entry_of_scan, fun ⟨hi, he⟩ => ?_⟩
  obtain ⟨j, hj⟩ := Option.isSome_iff_exists.1 (CodeTable.scan_isSome hi he)
  obtain ⟨hj0, hje⟩ := CodeTable.entry_of_scan hj
  rw [hj, hdistinct i j hi hj0 (he.trans hje.symm)]

theorem clut_entry_ne_zero : ∀ i : Nibble, i ≠ 0 → clut.entry i ≠ 0x00 := by decide

theorem clut_entry_injective : ∀ i j : Nibble, i ≠ 0 → j ≠ 0 → clut.entry i = clut.entry j → i = j := by decide

/-- Settles O45, by the sixteen entries of the table. -/
theorem codeTableDistinct : Obligations.CodeTableDistinct := fun i j hi hj =>
  ⟨clut_entry_ne_zero i hi, clut_entry_injective i j hi hj⟩

end Sys2Proof.Machine

/-! ## STAT: O46 -/

namespace Sys2Proof.Machine

theorem statusOf_mode (mode : Mode) (pv : Bool) (fcode : Option FaultCause) :
    (statusOf mode pv fcode).extractLsb' 0 2 = mode.code := by
  unfold statusOf; generalize fcodeBits fcode = f; generalize mode.code = m; revert f pv m; decide

theorem statusOf_fcode (mode : Mode) (pv : Bool) (fcode : Option FaultCause) :
    (statusOf mode pv fcode).extractLsb' 4 3 = fcodeBits fcode := by
  unfold statusOf; generalize fcodeBits fcode = f; generalize mode.code = m; revert f pv m; decide

/-- The bits of STATUS outside MODE and FCODE: PV, and the two that are always 0. -/
theorem statusOf_bits (mode : Mode) (pv : Bool) (fcode : Option FaultCause) :
    (statusOf mode pv fcode).getLsbD 2 = pv ∧ (statusOf mode pv fcode).getLsbD 3 = false ∧
      (statusOf mode pv fcode).getLsbD 7 = false := by
  unfold statusOf; generalize fcodeBits fcode = f; generalize mode.code = m; revert f pv m; decide

/-- Settles O46: the byte is `statusByte s`, whose fields are the registers' codes. -/
theorem statAnswersStatus : Obligations.StatAnswersStatus := by
  intro s
  obtain ⟨hpv, h3, h7⟩ := statusOf_bits s.mode s.pv s.fcode
  refine ⟨statusByte s, rfl, (statusOf_mode ..).trans ?_, hpv, h3, (statusOf_fcode ..).trans ?_, h7⟩
  · cases s.mode <;> rfl
  · rcases s.fcode with _ | c
    · rfl
    · cases c <;> rfl

end Sys2Proof.Machine

/-! PROOFS. The obligations of 30_encoding.md. `decode_eq_legal_iff` is the one fact about the decoder that the claims on
words need; the claims on responses are read off `WordEffect`. -/

/-! ## A word and its fields -/

namespace Sys2Proof

@[simp] theorem CmdFields.ofWord_toWord (f : CmdFields) : CmdFields.ofWord f.toWord = f := by
  have hop : f.toWord.extractLsb' 12 4 = f.op := by
    rw [toWord, BitVec.extractLsb'_append_eq_of_le (by decide), BitVec.extractLsb'_append_eq_left]
  have hrsv : f.toWord.extractLsb' 8 4 = f.rsv := by
    rw [toWord, BitVec.extractLsb'_append_eq_of_le (by decide), BitVec.extractLsb'_append_eq_right]
  have harg : f.toWord.extractLsb' 0 8 = f.arg := BitVec.extractLsb'_append_eq_right
  rw [ofWord, hop, hrsv, harg]

@[simp] theorem CmdFields.toWord_ofWord (w : CmdWord) : (CmdFields.ofWord w).toWord = w := by
  simp only [ofWord, toWord]
  rw [BitVec.extractLsb'_append_extractLsb'_eq_extractLsb' (by decide : 12 = 8 + 4),
    BitVec.extractLsb'_append_extractLsb'_eq_extractLsb' (by decide : 8 = 0 + 8), BitVec.extractLsb'_eq_self]

theorem CmdFields.ofWord_eq_iff {w : CmdWord} {f : CmdFields} : CmdFields.ofWord w = f ↔ f.toWord = w :=
  ⟨fun h => h ▸ toWord_ofWord w, fun h => h ▸ ofWord_toWord f⟩

theorem CmdFields.toWord_toNat (f : CmdFields) :
    f.toWord.toNat = f.op.toNat * 4096 + f.rsv.toNat * 256 + f.arg.toNat := by
  have hop := ofWord_op f.toWord
  have hrsv := ofWord_rsv f.toWord
  have harg := ofWord_arg f.toWord
  rw [ofWord_toWord] at hop hrsv harg
  omega

/-! ## Which command a word decodes to: O1, O3 -/

theorem argHigh_nibbleArg (n : Nibble) : argHigh (nibbleArg n) = 0 := by revert n; decide

theorem argLow_nibbleArg (n : Nibble) : argLow (nibbleArg n) = n := by revert n; decide

theorem nibbleArg_argLow : ∀ {arg : Byte}, argHigh arg = 0 → nibbleArg (argLow arg) = arg := by decide

theorem decodeOp_op_arg (i : Instr) : decodeOp i.op i.arg = .legal i := by
  cases i with
  | openSession dir => cases dir <;> rfl
  | wrn n | ldec n => simp [decodeOp, Instr.op, Instr.arg, argHigh_nibbleArg, argLow_nibbleArg]
  | rdn | close | lenc | stat => rfl

/-- OP and ARG of a command are all that its decoding can come from. -/
theorem op_arg_of_decodeOp {op : BitVec 4} {arg : Byte} {i : Instr} (h : decodeOp op arg = .legal i) :
    i.op = op ∧ i.arg = arg := by
  unfold decodeOp at h
  rw [BitVec.toNat_eq]
  split at h
  case h_5 hop => cases h; exact ⟨hop.symm, rfl⟩
  case h_8 => cases h
  all_goals split_ifs at h <;> cases h <;> simp_all [Instr.op, Instr.arg, Direction.arg, nibbleArg_argLow]

theorem opSelects_op (i : Instr) : opSelects i.op = true := by cases i <;> rfl

/-- A word decodes to a command exactly where it is the command's encoding (30_encoding.md R70 to R74). -/
theorem decode_eq_legal_iff {w : CmdWord} {i : Instr} : decode w = .legal i ↔ encode i = w := by
  constructor
  · intro h
    simp only [decode] at h
    split_ifs at h with hop hrsv
    obtain ⟨hi, ha⟩ := op_arg_of_decodeOp h
    rw [encode, hi, ha, ← not_not.1 hrsv, ← CmdFields.ofWord_eq_iff]
  · rintro rfl
    simp [decode, encode, opSelects_op, decodeOp_op_arg]

theorem nibbleArg_toNat (n : Nibble) : (nibbleArg n).toNat = n.toNat := BitVec.toNat_setWidth_of_le (by decide)

theorem encode_toNat (i : Instr) : (encode i).toNat = i.op.toNat * 4096 + i.arg.toNat := by
  simp [encode, CmdFields.toWord_toNat]

/-- Settles O1: both halves are `decode_eq_legal_iff`. -/
theorem decodeEncodeRoundTrip : Obligations.DecodeEncodeRoundTrip :=
  ⟨fun _ => decode_eq_legal_iff.2 rfl, fun _ _ => decode_eq_legal_iff.1⟩

/-- Settles O3: the word of each command as a number. -/
theorem decodeByWordNumber : Obligations.DecodeByWordNumber := by
  intro w i
  rw [decode_eq_legal_iff, BitVec.toNat_eq, encode_toNat, eq_comm]
  cases i with
  | openSession dir => cases dir <;> simp [Instr.op, Instr.arg, Direction.arg]
  | wrn n | ldec n => simp [Instr.op, Instr.arg, nibbleArg_toNat]
  | rdn | close | lenc | stat => simp [Instr.op, Instr.arg]

end Sys2Proof

/-! ## The illegal words: O5 -/

namespace Sys2Proof

theorem exists_illegal_iff {w : CmdWord} : (∃ why, decode w = .illegal why) ↔ ¬ ∃ i, decode w = .legal i := by
  cases decode w <;> simp

/-- The checks on the fields as bounds on three numbers (30_encoding.md R71 to R73). -/
theorem CmdFields.wellFormed_iff (f : CmdFields) :
    f.wellFormed = true ↔ (1 ≤ f.op.toNat ∧ f.op.toNat ≤ 7) ∧ f.rsv.toNat = 0 ∧
      (f.op.toNat = 1 → f.arg.toNat ≤ 1) ∧
      (f.op.toNat = 2 ∨ f.op.toNat = 4 ∨ f.op.toNat = 7 → f.arg.toNat = 0) ∧
      (f.op.toNat = 3 ∨ f.op.toNat = 6 → f.arg.toNat ≤ 15) := by
  simp only [wellFormed, opLegal, rsvLegal, argLegal, Bool.and_eq_true, decide_eq_true_eq, and_assoc]
  split
  case h_8 => simp only [imp_false, Bool.false_eq_true] at *; omega
  all_goals simp_all

namespace Machine

theorem acceptWord_illegal_unfaulted {w : CmdWord} {why : Illegal} {s : State} (hd : decode w = .illegal why)
    (hf : s.fcode = none) : acceptWord w s = .next (s.raiseFault .illegalCmd) := by
  rw [acceptWord_illegal hd, State.illegalWord, State.prologue_of_none hf]

theorem acceptWord_illegal_faulted {w : CmdWord} {why : Illegal} {s : State} {c : FaultCause}
    (hd : decode w = .illegal why) (hf : s.fcode = some c) : acceptWord w s = .next s.answerFaulted := by
  rw [acceptWord_illegal hd, State.illegalWord, State.prologue_of_some hf]

/-- Settles O5: the illegal words are those whose fields fail a check, and one takes `State.illegalWord`. -/
theorem illegalWordsFault : Obligations.IllegalWordsFault := by
  refine ⟨fun w => ?_, fun w why s hd => ⟨fun hf => ?_, fun c hf => ?_⟩⟩
  · rw [exists_illegal_iff, decode_legal_iff_wellFormed, CmdFields.wellFormed_iff, CmdFields.ofWord_op,
      CmdFields.ofWord_rsv, CmdFields.ofWord_arg]
    dsimp only
    omega
  · rw [acceptWord_illegal_unfaulted hd hf]
    rfl
  · have hdata : fcodeByte s.fcode = c.code.setWidth 8 := by rw [hf]; rfl
    rw [acceptWord_illegal_faulted hd hf, ← hdata]
    rfl

end Machine

end Sys2Proof

/-! ## Every accepted word is answered: O7, O6 -/

namespace Sys2Proof.Machine

section
variable {s t u : State} {d : Decoded}

/-- `t` adds to the trace of `s` byte-side requests only. -/
def State.AddsRequests (s t : State) : Prop :=
  ∃ reqs, t.trace = s.trace ++ reqs ∧ ∀ e ∈ reqs, e.isRequest = true

theorem State.AddsRequests.of_trace_eq (h : t.trace = s.trace) : s.AddsRequests t := ⟨[], by simp [h], nofun⟩

theorem State.AddsRequests.snoc {e : Event} (h : s.AddsRequests t) (he : e.isRequest = true)
    (hu : u.trace = t.trace ++ [e]) : s.AddsRequests u := by
  obtain ⟨reqs, ht, hreqs⟩ := h
  exact ⟨reqs ++ [e], by rw [hu, ht, List.append_assoc], by simpa [or_imp, forall_and] using ⟨hreqs, he⟩⟩

/-- Every outcome of a word sends requests first and then one response (30_encoding.md R76). -/
theorem WordEffect.trace_eq (h : WordEffect s d t) : ∃ u r, s.AddsRequests u ∧ t.trace = u.trace ++ [.rsp r] := by
  have stay : s.AddsRequests s := .of_trace_eq rfl
  cases h with
  | openFails | opens => exact ⟨s.bopen _, _, stay.snoc rfl rfl, rfl⟩
  | rdnByte | rdnEos | rdnIoErr => exact ⟨s.bread, _, stay.snoc rfl rfl, rfl⟩
  | wrnSends | wrnIoErr | flushIoErr => exact ⟨s.bwrite _, _, stay.snoc rfl rfl, rfl⟩
  | closes | closeIoErr => exact ⟨s.bclose, _, stay.snoc rfl rfl, rfl⟩
  | flushCloses | flushCloseIoErr => exact ⟨(s.bwrite _).bclose, _, (stay.snoc rfl rfl).snoc rfl rfl, rfl⟩
  | _ => exact ⟨s, _, stay, rfl⟩

end

/-- Every accepted word is answered, by one of the listed outcomes. -/
theorem acceptWord_answers (w : CmdWord) (s : State) :
    ∃ t reqs r, Answers (acceptWord w s) s t reqs r ∧ WordEffect s (decode w) t ∧ t.trace.getLast? = some (.rsp r) := by
  obtain ⟨t, ht, he⟩ := acceptWord_effect w s
  obtain ⟨u, r, ⟨reqs, hu, hreqs⟩, htr⟩ := he.trace_eq
  exact ⟨t, reqs, r, ⟨ht, by rw [htr, hu], hreqs⟩, he, by simp [htr]⟩


/-! The fields of the response word -/

theorem Response.word_st (r : Response) : r.word.extractLsb' 10 2 = r.st.code := by
  rw [word, BitVec.extractLsb'_append_eq_of_le (by decide), BitVec.extractLsb'_append_eq_of_le (by decide),
    BitVec.extractLsb'_append_eq_of_le (by decide)]
  exact BitVec.extractLsb'_eq_self

theorem Response.word_reserved (r : Response) : r.word.getLsbD 9 = false := by
  rw [word, BitVec.getLsbD_append, BitVec.getLsbD_append, BitVec.getLsbD_append]
  rfl

theorem Response.word_flag (r : Response) : r.word.getLsbD 8 = r.flag := by
  rw [word, BitVec.getLsbD_append, BitVec.getLsbD_append]
  exact BitVec.getLsbD_ofBool ..

theorem Response.word_data (r : Response) : r.word.extractLsb' 0 8 = r.data :=
  BitVec.extractLsb'_append_eq_right

/-- Settles O7: every outcome of a word is requests and then a response. -/
theorem oneResponsePerCommand : Obligations.OneResponsePerCommand := by
  refine ⟨fun w s => ?_, fun r => ⟨r.word_st, r.word_reserved, r.word_flag, r.word_data⟩⟩
  obtain ⟨t, reqs, r, ha, -, -⟩ := acceptWord_answers w s
  exact ⟨t, reqs, r, ha⟩

/-! A list of commands gets a response each -/

theorem filterMap_response?_requests {reqs : List Event} (h : ∀ e ∈ reqs, e.isRequest = true) :
    reqs.filterMap Event.response? = [] := by
  simpa [List.filterMap_eq_nil_iff, Event.isRequest] using h

theorem Answers.responses_eq {o : Host.Outcome State Fault Refusal} {s t : State} {reqs : List Event} {r : Response}
    (h : Answers o s t reqs r) : t.responses = s.responses ++ [r] := by
  obtain ⟨-, ht, hreqs⟩ := h
  simp [State.responses, ht, filterMap_response?_requests hreqs, Event.response?]

theorem exec_answers (i : Instr) (s : State) : ∃ t reqs r, Answers (exec i s) s t reqs r := by
  obtain ⟨t, reqs, r, ha, -, -⟩ := acceptWord_answers (encode i) s
  rw [acceptWord_legal (decode_eq_legal_iff.2 rfl)] at ha
  exact ⟨t, reqs, r, ha⟩

/-- Any list of commands runs through, each command with a response of its own (20_memory.md R63). -/
theorem execAll_responses (cmds : List Instr) (s : State) :
    ∃ t, execAll cmds s = .next t ∧ t.responses.length = s.responses.length + cmds.length := by
  induction cmds generalizing s with
  | nil => exact ⟨s, rfl, rfl⟩
  | cons i cmds ih =>
    obtain ⟨u, reqs, r, ha⟩ := exec_answers i s
    obtain ⟨t, ht, hlen⟩ := ih u
    refine ⟨t, by simp only [execAll, ha.1, ht], ?_⟩
    simp only [hlen, ha.responses_eq, List.length_append, List.length_cons, List.length_nil]
    omega

theorem wrnOf_shiftRight (b : Nat) : wrnOf (b / 16) = .wrn (BitVec.ofNat 4 (b >>> 4)) := by
  rw [wrnOf, Nat.shiftRight_eq_div_pow]

theorem wrnOf_and (b : Nat) : wrnOf (b % 16) = .wrn (BitVec.ofNat 4 (b &&& 0xF)) := by
  rw [wrnOf, ← Nat.and_two_pow_sub_one_eq_mod b 4]

/-- Settles O6: division and remainder by 16 are the shift and the mask, and any list of commands runs through. -/
theorem pseudoInstructionsExpand : Obligations.PseudoInstructionsExpand := by
  intro b _
  refine ⟨by rw [expandAsm, wrnOf_shiftRight, wrnOf_and], by rw [expandAsm, wrnOf_shiftRight, wrnOf_and]; rfl,
    fun s => ?_⟩
  obtain ⟨t, ht, htlen⟩ := execAll_responses (expandAsm (.wrb b)) s
  obtain ⟨u, hu, hulen⟩ := execAll_responses (expandAsm (.esc b)) s
  exact ⟨t, u, ht, htlen, hu, hulen⟩

end Sys2Proof.Machine

/-! ## What a response reports: O8, O9 -/

namespace Sys2Proof.Machine

/-- Every response is sent by `respond`, a FAULT response too, and then it is the last event. -/
theorem State.eq_of_respond_last {u : State} {st : St} {flag : Bool} {data : Byte} {r : Response}
    (h : (u.respond st flag data).trace.getLast? = some (.rsp r)) : r = ⟨st, flag, data⟩ := by
  simpa using h.symm

section
variable {s t : State} {d : Decoded} {r : Response} (h : WordEffect s d t) (hr : t.trace.getLast? = some (.rsp r))
include h hr

/-- EOS is the answer of an RDN that finds the stream at its end, and of nothing else (40_stream.md R97). -/
theorem WordEffect.st_eos_iff : r.st = .eos ↔
    d = .legal .rdn ∧ s.fcode = none ∧ s.mode = .read ∧ s.pv = false ∧ s.srcAnswer = .eod := by
  constructor
  · intro hst
    cases h with
    | rdnEos hf hm hpv ha => exact ⟨rfl, hf, hm, hpv, ha⟩
    | _ => cases State.eq_of_respond_last hr; cases hst
  · rintro ⟨rfl, hf, hm, hpv, ha⟩
    cases h with
    | rdnEos => cases State.eq_of_respond_last hr; rfl
    | _ => simp_all -- every other outcome of RDN has a condition that contradicts these

/-- OPENFAIL is the answer of an OPEN that the byte side refuses, and of nothing else (40_stream.md R91). -/
theorem WordEffect.st_openFail_iff : r.st = .openFail ↔
    (∃ dir, d = .legal (.openSession dir)) ∧ s.fcode = none ∧ s.mode = .idle ∧ s.openAnswer = .fail := by
  constructor
  · intro hst
    cases h with
    | openFails hf hm ha => exact ⟨⟨_, rfl⟩, hf, hm, ha⟩
    | _ => cases State.eq_of_respond_last hr; cases hst
  · rintro ⟨⟨dir, rfl⟩, hf, hm, ha⟩
    cases h with
    | openFails => cases State.eq_of_respond_last hr; rfl
    | _ => simp_all -- every other outcome of OPEN has a condition that contradicts these

/-- FCODE and a FAULT response: absorbed by a block already faulted, raised by the word, or neither (60_exceptions.md
R163, R164). -/
theorem WordEffect.fault_cases :
    (r = ⟨.fault, false, fcodeByte t.fcode⟩ ∧ (s.fcode ≠ none ∧ d ≠ .legal .stat) ∧ t.fcode = s.fcode) ∨
      (r = ⟨.fault, false, fcodeByte t.fcode⟩ ∧ s.fcode = none ∧ t.fcode ≠ none) ∨
      (r.st ≠ .fault ∧ (s.fcode = none ∨ d = .legal .stat) ∧ t.fcode = s.fcode) := by
  cases h with
  | absorbed hd hf => exact .inl ⟨State.eq_of_respond_last hr, ⟨by simp [hf], hd⟩, rfl⟩
  | illegal hf | openTwice hf | rdnNotOpen hf | rdnWrongDir hf | rdnIoErr hf | wrnNotOpen hf | wrnWrongDir hf
  | wrnIoErr hf | closeNotOpen hf | closeIoErr hf | flushCloseIoErr hf | flushIoErr hf =>
    exact .inr (.inl ⟨State.eq_of_respond_last hr, hf, nofun⟩)
  | stat => cases State.eq_of_respond_last hr; exact .inr (.inr ⟨nofun, .inr rfl, rfl⟩)
  | openFails hf | opens hf | rdnPending hf | rdnByte hf | rdnEos hf | wrnBuffers hf | wrnSends hf | closes hf
  | flushCloses hf | lencHit hf | lencMiss hf | ldec hf =>
    cases State.eq_of_respond_last hr; exact .inr (.inr ⟨nofun, .inl hf, rfl⟩)

theorem WordEffect.st_fault_iff : r.st = .fault ↔
    (s.fcode ≠ none ∧ d ≠ .legal .stat) ∨ (s.fcode = none ∧ t.fcode ≠ none) := by
  rcases h.fault_cases hr with ⟨rfl, hs, -⟩ | ⟨rfl, hs⟩ | ⟨hst, hs, ht⟩
  · exact iff_of_true rfl (.inl hs)
  · exact iff_of_true rfl (.inr hs)
  · rw [ht]; tauto

end

/-- Settles O8: each ST but OK is given by the outcomes that carry it. -/
theorem responseStatusMeaning : Obligations.ResponseStatusMeaning := by
  refine ⟨⟨rfl, rfl, rfl, rfl⟩, fun w s => ?_⟩
  obtain ⟨t, reqs, r, ha, he, hr⟩ := acceptWord_answers w s
  exact ⟨t, reqs, r, ha, he.st_eos_iff hr, he.st_openFail_iff hr, he.st_fault_iff hr⟩

/-- Settles O9: a FAULT response is absorbed or raised, and its DATA is FCODE either way; only a word that raises a fault
writes FCODE. -/
theorem faultResponseCarriesFcode : Obligations.FaultResponseCarriesFcode := by
  intro w s
  obtain ⟨t, reqs, r, ha, he, hr⟩ := acceptWord_answers w s
  refine ⟨t, reqs, r, ha, ?_⟩
  rcases he.fault_cases hr with ⟨rfl, ⟨hs, -⟩, ht⟩ | ⟨rfl, hs, ht⟩ | ⟨hst, -, ht⟩
  · exact ⟨fun _ => ⟨rfl, ht ▸ hs, rfl⟩, fun _ => ht⟩
  · exact ⟨fun _ => ⟨rfl, ht, rfl⟩, fun h => absurd hs h⟩
  · exact ⟨fun h => absurd h hst, fun _ => ht⟩

end Sys2Proof.Machine

/-! PROOFS. The obligations of 40_stream.md. `WordEffect.exec_eq` is the one fact about the meanings: the conditions of a
listed outcome select it, so each claim on a next state names its outcome and writes the state out. -/

/-! ## The conditions of an outcome select it -/

namespace Sys2Proof.Machine

/-- The converse of `exec_effect`: an outcome whose conditions hold is the next state. -/
theorem WordEffect.exec_eq {s t : State} {i : Instr} (h : WordEffect s (.legal i) t) : exec i s = .next t := by
  cases h with
  | absorbed hd hf =>
    cases i with
    | stat => exact absurd rfl hd
    | openSession dir => simp [exec, execOpen, hf]
    | rdn => simp [exec, execRdn, hf]
    | wrn n => simp [exec, execWrn, hf]
    | close => simp [exec, execClose, hf]
    | lenc b => simp [exec, execLenc, hf]
    | ldec n => simp [exec, execLdec, hf]
  | openFails hf hm ha => exact execOpen_fail hf hm ha
  | opens hf hm ha => exact execOpen_ok hf hm ha
  | openTwice hf hm =>
    cases h : s.mode with
    | idle => exact absurd h hm
    | read | write => simp [exec, execOpen, hf, h]
  | rdnNotOpen hf hm | rdnWrongDir hf hm => simp [exec, execRdn, hf, hm]
  | rdnPending hf hm hpv => simp [exec, execRdn, hf, hm, hpv]
  | rdnByte hf hm hpv ha | rdnEos hf hm hpv ha | rdnIoErr hf hm hpv ha => simp [exec, execRdn, hf, hm, hpv, ha]
  | wrnNotOpen hf hm | wrnWrongDir hf hm => simp [exec, execWrn, hf, hm]
  | wrnBuffers hf hm hpv => simp [exec, execWrn, hf, hm, hpv]
  | wrnSends hf hm hpv ha | wrnIoErr hf hm hpv ha => simp [exec, execWrn, hf, hm, hpv, ha]
  | closeNotOpen hf hm => simp [exec, execClose, hf, hm]
  | closes hf hm ha | closeIoErr hf hm ha =>
    rcases hm with hm | ⟨hm, hpv⟩
    · simp [exec, execClose, State.endSession, hf, hm, ha]
    · simp [exec, execClose, State.endSession, hf, hm, hpv, ha]
  | flushCloses hf hm hpv hw ha | flushCloseIoErr hf hm hpv hw ha =>
    simp [exec, execClose, State.endSession, hf, hm, hpv, hw, ha]
  | flushIoErr hf hm hpv hw => simp [exec, execClose, hf, hm, hpv, hw]
  | lencHit hf hi => exact execLenc_hit hf hi
  | lencMiss hf hi => exact execLenc_miss hf hi
  | ldec hf => simp [exec, execLdec, hf]
  | stat => rfl

/-- `exec_eq` with the next state's trace written out as one list, as the statements give it. -/
theorem WordEffect.exec_eq_of_trace {s t : State} {i : Instr} {events : List Event} (h : WordEffect s (.legal i) t)
    (htr : t.trace = events) : exec i s = .next { t with trace := events } := by
  rw [h.exec_eq, ← htr]

/-! The DATA of an IO_ERROR response (60_exceptions.md R160), and the requests of WRN and CLOSE -/

@[simp] theorem fcodeByte_ioError : fcodeByte (some .ioError) = 0x05 := rfl
@[simp] theorem Event.isRequest_bwrite (b : Byte) (a : SnkAnswer) : (Event.bwrite b a).isRequest = true := rfl
@[simp] theorem Event.isRequest_bclose (a : CloseAnswer) : (Event.bclose a).isRequest = true := rfl

end Sys2Proof.Machine

/-! ## CLOSE as a whole: O33, O34 -/

namespace Sys2Proof.Machine

/-- A command answers in one way only. -/
theorem Answers.unique {o : Host.Outcome State Fault Refusal} {s t t' : State} {reqs reqs' : List Event} {r r' : Response}
    (h : Answers o s t reqs r) (h' : Answers o s t' reqs' r') : t = t' ∧ reqs = reqs' ∧ r = r' := by
  obtain ⟨ho, ht, -⟩ := h
  obtain ⟨ho', ht', -⟩ := h'
  cases ho.symm.trans ho'
  simpa using ht.symm.trans ht'

/-- CLOSE ends the session with OK, or it answers FAULT for one of three reasons (40_stream.md R110, R111, R114, R115;
60_exceptions.md R164). -/
theorem WordEffect.close_cases {s t : State} (h : WordEffect s (.legal .close) t) :
    ∃ reqs r, t.trace = s.trace ++ reqs ++ [.rsp r] ∧ (∀ e ∈ reqs, e.isRequest = true) ∧
      ((r.st = .ok ∧ (t.mode = .idle ∧ t.pv = false ∧ t.fcode = none) ∧
          s.fcode = none ∧ s.mode ≠ .idle ∧ ∀ e ∈ reqs, e.isIoErr = false) ∨
        (r.st = .fault ∧ (s.fcode ≠ none ∨ s.mode = .idle ∨ ∃ e ∈ reqs, e.isIoErr = true))) := by
  cases h with
  | absorbed _ hf =>
    exact ⟨[], ⟨.fault, false, fcodeByte s.fcode⟩, by simp, nofun, .inr ⟨rfl, .inl (by simp [hf])⟩⟩
  | closeNotOpen _ hm =>
    exact ⟨[], ⟨.fault, false, fcodeByte (some .notOpen)⟩, by simp, nofun, .inr ⟨rfl, .inr (.inl hm)⟩⟩
  | closes hf hm ha =>
    have hidle : s.mode ≠ .idle := by rcases hm with hm | ⟨hm, -⟩ <;> simp [hm]
    exact ⟨[.bclose .ok], ⟨.ok, false, 0x00⟩, by simp [ha], by simp,
      .inl ⟨rfl, ⟨rfl, rfl, hf⟩, hf, hidle, by simp [Event.isIoErr]⟩⟩
  | closeIoErr _ _ ha =>
    exact ⟨[.bclose .ioerr], ⟨.fault, false, 0x05⟩, by simp [ha], by simp,
      .inr ⟨rfl, .inr (.inr (by simp [Event.isIoErr]))⟩⟩
  | flushCloses hf hm _ hw ha =>
    exact ⟨[.bwrite (packNibbles s.pend padNibble) .ok, .bclose .ok], ⟨.ok, true, packNibbles s.pend padNibble⟩,
      by simp [hw, ha], by simp, .inl ⟨rfl, ⟨rfl, rfl, hf⟩, hf, by simp [hm], by simp [Event.isIoErr]⟩⟩
  | flushCloseIoErr _ _ _ hw ha =>
    exact ⟨[.bwrite (packNibbles s.pend padNibble) .ok, .bclose .ioerr], ⟨.fault, false, 0x05⟩,
      by simp [hw, ha], by simp, .inr ⟨rfl, .inr (.inr (by simp [Event.isIoErr]))⟩⟩
  | flushIoErr _ _ _ hw =>
    exact ⟨[.bwrite (packNibbles s.pend padNibble) .ioerr], ⟨.fault, false, 0x05⟩,
      by simp [hw], by simp, .inr ⟨rfl, .inr (.inr (by simp [Event.isIoErr]))⟩⟩

/-- Settles O33: an OK ends the session, and each reason for a FAULT is the failure of one of the three conditions. -/
theorem successfulCloseEndsSession : Obligations.SuccessfulCloseEndsSession := by
  intro s
  obtain ⟨t, ht, he⟩ := exec_effect .close s
  obtain ⟨reqs, r, htr, hreqs, hr⟩ := he.close_cases
  refine ⟨t, reqs, r, ⟨ht, htr, hreqs⟩, ?_⟩
  rcases hr with ⟨hst, hend, hf, hm, hio⟩ | ⟨hst, hwhy⟩
  · exact ⟨fun _ => hend, iff_of_true hst ⟨hf, hm, by simpa using hio⟩⟩
  · refine ⟨fun h => by simp [hst] at h, iff_of_false (by simp [hst]) fun ⟨hf, hm, hio⟩ => ?_⟩
    rcases hwhy with h | h | ⟨e, he, h⟩
    · exact h hf
    · exact hm h
    · exact absurd h (by simpa using List.all_eq_true.1 hio e he)

/-- Settles O34: a CLOSE answered OK leaves an unfaulted idle block, by O33, and there CLOSE raises NOT_OPEN. -/
theorem closeWithoutSessionFaults : Obligations.CloseWithoutSessionFaults := by
  have notOpen (s : State) (hf : s.fcode = none) (hm : s.mode = .idle) : exec .close s = .next (s.raiseFault .notOpen) :=
    (WordEffect.closeNotOpen hf hm).exec_eq
  refine ⟨notOpen, fun s t reqs r ha hst => ?_⟩
  obtain ⟨t', reqs', r', ha', hok, -⟩ := successfulCloseEndsSession s
  obtain ⟨rfl, -, rfl⟩ := ha.unique ha'
  obtain ⟨hm, -, hf⟩ := hok hst
  exact notOpen t hf hm

end Sys2Proof.Machine

/-! ## OPEN: O15 to O17 -/

namespace Sys2Proof.Machine

/-- Settles O15: the outcome `opens`, whose MODE is the one written out for either DIR. -/
theorem openStartsSession : Obligations.OpenStartsSession := by
  intro dir s hf hm ha
  cases dir <;> exact (WordEffect.opens hf hm ha).exec_eq_of_trace (by simp [ha])

/-- Settles O16: the refused OPEN leaves the block idle and unfaulted, where an OPEN answered ok starts a session. -/
theorem failedOpenWritesNoState : Obligations.FailedOpenWritesNoState := fun _ _ hf hm ha =>
  ⟨_, rfl, (WordEffect.openFails hf hm ha).exec_eq_of_trace (by simp [ha]), fun _ ha' =>
    ⟨_, WordEffect.exec_eq (.opens hf hm ha'), rfl, hf⟩⟩

/-- Settles O17: the outcome `openTwice`. -/
theorem openWhileOpenFaults : Obligations.OpenWhileOpenFaults := fun _ _ hf hm =>
  (WordEffect.openTwice hf hm).exec_eq

end Sys2Proof.Machine

/-! ## RDN: O18 to O22 -/

namespace Sys2Proof.Machine

/-- Settles O18: a byte read leaves its low nibble pending in an unfaulted read session, which is the first clause's
case. -/
theorem rdnReturnsPending : Obligations.RdnReturnsPending :=
  ⟨fun _ hf hm hpv => (WordEffect.rdnPending hf hm hpv).exec_eq, fun _ _ hf hm hpv ha =>
    ⟨_, _, (WordEffect.rdnByte hf hm hpv ha).exec_eq, rfl, WordEffect.exec_eq (.rdnPending hf hm rfl), rfl, rfl⟩⟩

/-- Settles O19: the outcome `rdnByte`. -/
theorem rdnSplitsByte : Obligations.RdnSplitsByte := fun _ _ hf hm hpv ha =>
  (WordEffect.rdnByte hf hm hpv ha).exec_eq_of_trace (by simp [ha, zextNibble, highNibble])

theorem execRdn_eod {s : State} (hf : s.fcode = none) (hm : s.mode = .read) (hpv : s.pv = false)
    (ha : s.srcAnswer = .eod) : exec .rdn s =
      .next { s with env := s.bread.env, trace := s.trace ++ [.bread .eod, .rsp ⟨.eos, false, 0x00⟩] } :=
  (WordEffect.rdnEos hf hm hpv ha).exec_eq_of_trace (by simp [ha])

/-- Settles O20: EOS writes no register, so the next RDN meets the same conditions. -/
theorem rdnEndOfStream : Obligations.RdnEndOfStream := fun _ hf hm hpv ha =>
  ⟨_, rfl, execRdn_eod hf hm hpv ha, execRdn_eod hf hm hpv⟩

/-- Settles O21: the outcome `rdnIoErr`. -/
theorem rdnReadErrorFaults : Obligations.RdnReadErrorFaults := fun _ hf hm hpv ha =>
  (WordEffect.rdnIoErr hf hm hpv ha).exec_eq_of_trace (by simp [ha])

/-- Settles O22: the outcomes `rdnWrongDir` and `rdnNotOpen`. -/
theorem rdnOutsideReadSessionFaults : Obligations.RdnOutsideReadSessionFaults := fun _ hf =>
  ⟨fun hm => (WordEffect.rdnWrongDir hf hm).exec_eq, fun hm => (WordEffect.rdnNotOpen hf hm).exec_eq⟩

end Sys2Proof.Machine

/-! ## WRN: O24 to O27 -/

namespace Sys2Proof.Machine

/-- Settles O24: the outcome `wrnBuffers`. -/
theorem wrnBuffersFirstNibble : Obligations.WrnBuffersFirstNibble := fun _ _ hf hm hpv =>
  (WordEffect.wrnBuffers hf hm hpv).exec_eq

/-- Settles O25: the byte sent is also the byte answered; a nibble that is only buffered answers no byte, by O24. -/
theorem wrnSendsPair : Obligations.WrnSendsPair := fun n s hf hm =>
  ⟨fun hpv ha => (WordEffect.wrnSends hf hm hpv ha).exec_eq_of_trace (by simp [ha, packNibbles]),
    fun hpv => ⟨_, wrnBuffersFirstNibble n s hf hm hpv, by simp, nofun⟩⟩

/-- Settles O26: the outcome `wrnIoErr`. -/
theorem wrnWriteErrorFaults : Obligations.WrnWriteErrorFaults := fun _ _ hf hm hpv ha =>
  (WordEffect.wrnIoErr hf hm hpv ha).exec_eq_of_trace (by simp [ha, packNibbles])

/-- Settles O27: the outcomes `wrnWrongDir` and `wrnNotOpen`. -/
theorem wrnOutsideWriteSessionFaults : Obligations.WrnOutsideWriteSessionFaults := fun _ _ hf =>
  ⟨fun hm => (WordEffect.wrnWrongDir hf hm).exec_eq, fun hm => (WordEffect.wrnNotOpen hf hm).exec_eq⟩

end Sys2Proof.Machine

/-! ## CLOSE by case: O29 to O32 -/

namespace Sys2Proof.Machine

/-- Settles O29: the two answers to BCLOSE where there is nothing to flush. -/
theorem closeWithoutFlush : Obligations.CloseWithoutFlush := fun _ hf hm =>
  ⟨fun ha => (WordEffect.closes hf hm ha).exec_eq_of_trace (by simp [ha]),
    fun ha => (WordEffect.closeIoErr hf hm ha).exec_eq_of_trace (by simp [ha])⟩

/-- The byte a flush sends, as the statements write it. -/
theorem packNibbles_padNibble (n : Nibble) : packNibbles n padNibble = n ++ 0#4 := rfl

/-- Settles O31: without a flush it is the second case of O29; after one the flush byte stays in the trace. -/
theorem closeErrorKeepsState : Obligations.CloseErrorKeepsState := fun s hf =>
  ⟨fun hm ha => (closeWithoutFlush s hf hm).2 ha, fun hm hpv hw ha =>
    (WordEffect.flushCloseIoErr hf hm hpv hw ha).exec_eq_of_trace (by simp [packNibbles_padNibble, hw, ha])⟩

/-- Settles O30: BCLOSE follows the flush whichever way it is answered; the case IOERR is O31's. -/
theorem closeFlushesPending : Obligations.CloseFlushesPending := by
  rintro s b rfl hf hm hpv hw
  have flushed (ha : (s.bwrite (s.pend ++ 0#4)).closeAnswer = .ok) :=
    (WordEffect.flushCloses hf hm hpv hw ha).exec_eq_of_trace
      (events := s.trace ++ [.bwrite (s.pend ++ 0#4) .ok, .bclose .ok, .rsp ⟨.ok, true, s.pend ++ 0#4⟩])
      (by simp [packNibbles_padNibble, hw, ha])
  have requests (a : CloseAnswer) : ∀ e ∈ [Event.bwrite (s.pend ++ 0#4) .ok, .bclose a], e.isRequest = true := by
    simp
  refine ⟨?_, flushed⟩
  cases ha : (s.bwrite (s.pend ++ 0#4)).closeAnswer with
  | ok => exact ⟨_, ⟨.ok, true, s.pend ++ 0#4⟩, flushed ha, by simp, requests _⟩
  | ioerr => exact ⟨_, ⟨.fault, false, 0x05⟩, (closeErrorKeepsState s hf).2 hm hpv hw ha, by simp, requests _⟩

/-- Settles O32: the outcome `flushIoErr`. -/
theorem flushErrorIssuesNoClose : Obligations.FlushErrorIssuesNoClose := fun _ hf hm hpv hw =>
  (WordEffect.flushIoErr hf hm hpv hw).exec_eq_of_trace (by simp [packNibbles_padNibble, hw])

end Sys2Proof.Machine

/-! PROOFS. The obligations of 41_lut.md. A response only appended is `State.respond` written out, so each claim is an
outcome of `WordEffect`; the hit and the miss of LENC are selected by the scan, and that is O44 at CLUT. -/

namespace Sys2Proof.Machine

/-! ## The scan of a table: misses, and the hits of CLUT -/

/-- A miss is the absence of a match at 1 to 15, whatever stands at index 0 (41_lut.md R121). -/
theorem CodeTable.scan_eq_none_iff {table : CodeTable} {b : Byte} :
    table.scan b = none ↔ ∀ i : Nibble, i ≠ 0 → table.entry i ≠ b := by
  simp [CodeTable.scan_eq_find?, mem_codeIndices]

theorem clut_scan_eq_some_iff {b : Byte} {i : Nibble} : clut.scan b = some i ↔ i ≠ 0 ∧ clut.entry i = b :=
  lookupsInverseForAnyTable clut clut_entry_injective b i

/-- CLUT[0] is 0x00, but no entry that is compared is (41_lut.md R123). -/
theorem clut_scan_zero : clut.scan 0x00 = none := CodeTable.scan_eq_none_iff.2 clut_entry_ne_zero

theorem clut_entry_escIdx : clut.entry escIdx = 0x00 := rfl

/-! ## LENC and LDEC: O39, O42, O40, O41 -/

/-- Settles O39: the outcomes `lencHit` and `lencMiss`; one match at most, because the codes are distinct (R37). -/
theorem lencAnswersIndex : Obligations.LencAnswersIndex := fun _ _ hf =>
  ⟨fun _ hi he => (WordEffect.lencHit hf (clut_scan_eq_some_iff.2 ⟨hi, he⟩)).exec_eq,
    fun hmiss => (WordEffect.lencMiss hf (CodeTable.scan_eq_none_iff.2 hmiss)).exec_eq,
    fun i j hi hj hib hjb => clut_entry_injective i j hi hj (hib.trans hjb.symm)⟩

/-- Settles O42: the response is read off CLUT alone, before the state is given. -/
theorem lookupsTouchNoStreamState : Obligations.LookupsTouchNoStreamState := by
  rintro i (⟨b, rfl⟩ | ⟨k, rfl⟩)
  · cases hscan : clut.scan b with
    | some i => exact ⟨⟨.ok, true, zextNibble i⟩, fun _ hf => (WordEffect.lencHit hf hscan).exec_eq⟩
    | none => exact ⟨⟨.ok, false, 0x00⟩, fun _ hf => (WordEffect.lencMiss hf hscan).exec_eq⟩
  · exact ⟨⟨.ok, decide (k = escIdx), clut.entry k⟩, fun _ hf => (WordEffect.ldec hf).exec_eq⟩

/-- Settles O40: the scan misses 0x00, so its code group is the escape's. -/
theorem lencMissesZeroByte : Obligations.LencMissesZeroByte :=
  ⟨clut_entry_escIdx, by rw [codeGroup, clut_scan_zero]; rfl, fun _ hf =>
    (WordEffect.lencMiss hf clut_scan_zero).exec_eq⟩

/-- Settles O41: FLAG is whether the index is the escape's, and the two clauses are the two answers. -/
theorem ldecReadsTable : Obligations.LdecReadsTable := by
  refine ⟨clut_entry_escIdx, fun idx s hf => ⟨?_, fun hidx => ?_⟩⟩
  · rintro rfl
    exact (WordEffect.ldec hf).exec_eq
  · rw [(WordEffect.ldec hf).exec_eq, decide_eq_false (show idx ≠ escIdx from hidx)]
    rfl

end Sys2Proof.Machine

/-! PROOFS. The obligation of 42_status.md on a faulted block: STAT has no prologue, any other command is the outcome
`WordEffect.absorbed`, and an illegal STAT word is an illegal word like any other (O5). -/

namespace Sys2Proof.Machine

/-- The response of a faulted block, with FCODE's value as the statements write it (60_exceptions.md R164). -/
theorem State.answerFaulted_of_some {s : State} {c : FaultCause} (hf : s.fcode = some c) :
    s.answerFaulted = { s with trace := s.trace ++ [.rsp ⟨.fault, false, c.code.setWidth 8⟩] } := by
  have hdata : fcodeByte s.fcode = c.code.setWidth 8 := by rw [hf]; rfl
  rw [State.answerFaulted, hdata]
  rfl

/-- A command other than STAT does nothing in a faulted block but answer with FCODE (60_exceptions.md R164). -/
theorem exec_faulted {i : Instr} {s : State} {c : FaultCause} (hi : i ≠ .stat) (hf : s.fcode = some c) :
    exec i s = .next { s with trace := s.trace ++ [.rsp ⟨.fault, false, c.code.setWidth 8⟩] } := by
  rw [← State.answerFaulted_of_some hf]
  exact (WordEffect.absorbed (by simpa using hi) hf).exec_eq

/-- A STAT word with any bit of RSV or ARG set is illegal (30_encoding.md R72, R73). -/
theorem exists_illegal_of_op_stat {w : CmdWord} (hop : w.toNat / 4096 = 7) (hw : w ≠ 0x7000) :
    ∃ why, decode w = .illegal why := by
  have hnat : w.toNat ≠ 0x7000 := fun h => hw (BitVec.eq_of_toNat_eq h)
  have hfields : w.toNat / 256 % 16 ≠ 0 ∨ w.toNat % 256 ≠ 0 := by omega
  refine (illegalWordsFault.1 w).2 ?_
  rcases hfields with hrsv | harg
  · exact .inr (.inl hrsv)
  · exact .inr (.inr (.inr (.inl ⟨.inr (.inr hop), harg⟩)))

/-- Settles O47: STAT answers in every state, and the two other clauses are the faulted answers to a command and to an
illegal word. -/
theorem statRunsWhenFaulted : Obligations.StatRunsWhenFaulted := by
  intro s c hf
  refine ⟨WordEffect.stat.exec_eq, fun i hi => exec_faulted hi hf, fun w hop hw => ?_⟩
  obtain ⟨why, hd⟩ := exists_illegal_of_op_stat hop hw
  exact (illegalWordsFault.2 w why s hd).2 c hf

end Sys2Proof.Machine

/-! PROOFS. The obligations of 45_reference_codec.md on single runs of the codec: first the packed format as lists, then what
the host sees of one command, then an invariant for the write session of compress and one for the read session of
decompress. -/

namespace Sys2Proof.Machine

/-! ## The nibble-packed format: O59 -/

theorem unpackFormat_append (file file' : List Byte) :
    unpackFormat (file ++ file') = unpackFormat file ++ unpackFormat file' := List.flatMap_append

theorem unpackFormat_length (file : List Byte) : (unpackFormat file).length = 2 * file.length := by
  induction file with
  | nil => rfl
  | cons b file ih => simp only [unpackFormat_cons, List.length_cons, ih]; omega

/-- Whole bytes are packed again as they were. -/
theorem packFormat_unpackFormat_append (file : List Byte) (ns : List Nibble) :
    packFormat (unpackFormat file ++ ns) = file ++ packFormat ns := by
  induction file with
  | nil => rfl
  | cons b file ih => simp [ih]

/-- Reading a packed stream back gives its nibbles and at most one pad (R149). -/
theorem unpackFormat_packFormat (ns : List Nibble) :
    unpackFormat (packFormat ns) = ns ∨ unpackFormat (packFormat ns) = ns ++ [padNibble] := by
  induction ns using packFormat.induct with
  | case1 => exact .inl rfl
  | case2 n => exact .inr (by simp)
  | case3 hi lo rest ih => simpa using ih

/-- The parser undoes a code group, direct or escape (R141, R142, R146, R147). -/
theorem parseNibbles_codeGroup_append (x : Byte) (rest : List Nibble) :
    parseNibbles (codeGroup x ++ rest) = x :: parseNibbles rest := by
  unfold codeGroup
  cases hx : clut.scan x with
  | some i =>
    obtain ⟨hi, he⟩ := clut_scan_eq_some_iff.1 hx
    exact (parseNibbles_direct hi rest).trans (by rw [he])
  | none =>
    change parseNibbles (escIdx :: highNibble x :: lowNibble x :: rest) = _
    rw [parseNibbles_escape, packNibbles_split]

theorem codeNibbles_cons (x : Byte) (xs : List Byte) : codeNibbles (x :: xs) = codeGroup x ++ codeNibbles xs := rfl

theorem parseNibbles_codeNibbles_append (raw : List Byte) (rest : List Nibble) :
    parseNibbles (codeNibbles raw ++ rest) = raw ++ parseNibbles rest := by
  induction raw with
  | nil => rfl
  | cons x xs ih => rw [codeNibbles_cons, List.append_assoc, parseNibbles_codeGroup_append, ih, List.cons_append]

/-- Settles O59: after the groups of the input the parser is left with nothing, a pad or a truncated escape, and each of
these parses to nothing. -/
theorem paddingAndTruncationAddNothing : Obligations.PaddingAndTruncationAddNothing := by
  intro raw
  have groups (rest : List Nibble) (h : parseNibbles rest = []) : parseNibbles (codeNibbles raw ++ rest) = raw := by
    rw [parseNibbles_codeNibbles_append, h, List.append_nil]
  refine ⟨?_, groups _ parseNibbles_truncated, fun h => groups _ (parseNibbles_truncated_high h)⟩
  rcases unpackFormat_packFormat (codeNibbles raw) with h | h <;> rw [h]
  · simpa using groups [] parseNibbles_nil
  · exact groups _ parseNibbles_truncated

end Sys2Proof.Machine

/-! ## One command of a host program -/

namespace Sys2Proof.Machine

/-- With RST released the host gets the response of the outcome that its command has, unless that is a FAULT (R148). -/
theorem hostCmd_respond {i : Instr} {s u : State} {st : St} {flag : Bool} {data : Byte} (hr : s.rst = false)
    (h : WordEffect s (.legal i) (u.respond st flag data)) (hst : st ≠ .fault) :
    hostCmd i s = .ok (⟨st, flag, data⟩, u.respond st flag data) := by
  have hstep : step { s with input := .cmd (encode i) :: s.input } = .next (u.respond st flag data) :=
    calc step { s with input := .cmd (encode i) :: s.input }
      _ = acceptWord (encode i) s := step_word_accepted rfl hr
      _ = exec i s := acceptWord_legal (decode_eq_legal_iff.2 rfl) s
      _ = .next (u.respond st flag data) := h.exec_eq
  have hlast : (s.eventsSince (u.respond st flag data)).getLast? = some (.rsp ⟨st, flag, data⟩) := by
    obtain ⟨v, r, ⟨reqs, hv, -⟩, ht⟩ := h.trace_eq
    have hrsp : r = ⟨st, flag, data⟩ := State.eq_of_respond_last (u := u) (by rw [ht, List.getLast?_concat])
    rw [State.eventsSince, ht, hv, hrsp, List.append_assoc, List.drop_left, List.getLast?_concat]
  simp [hostCmd, sendCommand, hstep, hlast, Event.response?, hst]

/-- An unfaulted session is open, and RST is released. -/
def State.InSession (t : State) (dir : Direction) : Prop := t.rst = false ∧ t.fcode = none ∧ t.mode = modeOf dir

/-- The nibble a session holds back: buffered for WRN, not yet delivered for RDN (10_state.md R28). -/
def State.pending (t : State) : List Nibble := if t.pv then [t.pend] else []

theorem State.pending_of_pv {t : State} (h : t.pv = true) : t.pending = [t.pend] := by simp [State.pending, h]

theorem State.pending_of_not_pv {t : State} (h : t.pv = false) : t.pending = [] := by simp [State.pending, h]

theorem hostCmd_open {dir : Direction} {s : State} (hs : s.Ready) (ha : s.openAnswer = .ok) :
    hostCmd (.openSession dir) s =
      .ok (⟨.ok, false, 0x00⟩, { s.bopen dir with mode := modeOf dir, pv := false }.respond .ok false 0x00) := by
  obtain ⟨hr, hf, hm⟩ := hs
  exact hostCmd_respond hr (.opens hf hm ha) nofun

end Sys2Proof.Machine

/-! ## Compress: O56 -/

namespace Sys2Proof.Machine

/-! A byte side that answers ok, and goes on doing so -/

section
variable {s t : State} {b : Byte}

theorem State.ByteSideOk.answers (h : s.ByteSideOk) :
    s.openAnswer = .ok ∧ s.snkAnswer = .ok ∧ s.closeAnswer = .ok := by
  unfold State.ByteSideOk at h
  split at h
  next q he =>
    obtain ⟨ho, hw, hc⟩ := h
    simp [State.openAnswer, State.snkAnswer, State.closeAnswer, he, ho, hw, hc]
  next l he => exact ⟨State.openAnswer_lists he, State.snkAnswer_lists he, State.closeAnswer_lists he⟩

theorem State.ByteSideOk.bopen_bwrite (h : s.ByteSideOk) (dir : Direction) (b : Byte) :
    (s.bopen dir).ByteSideOk ∧ (s.bwrite b).ByteSideOk := by
  unfold State.ByteSideOk at *
  cases he : s.env with
  | scripted q =>
    rw [he] at h
    obtain ⟨ho, hw, hc⟩ := h
    simp [he, ho, hw, hc]
  | lists l => simp [he]

theorem State.ByteSideOk.bopen (h : s.ByteSideOk) (dir : Direction) : (s.bopen dir).ByteSideOk :=
  (h.bopen_bwrite dir 0).1

theorem State.ByteSideOk.bwrite (h : s.ByteSideOk) : (s.bwrite b).ByteSideOk := (h.bopen_bwrite .write b).2

/-- Since `s` the byte side was sent `sent` and nothing else, in one write session; in the deterministic environment that is
the session's stream (20_memory.md R57, R65). -/
def State.SentSince (s : State) (sent : List Byte) (t : State) : Prop :=
  t.sentBytes = s.sentBytes ++ sent ∧ ∀ l, s.env = .lists l → t.env = .lists { l with sink := sent }

theorem State.sentSince_bopen (s : State) : s.SentSince [] (s.bopen .write) :=
  ⟨by simp [State.sentBytes, Event.sentByte?], fun l hl => by simp [hl, ListSide.opened]⟩

theorem State.SentSince.bwrite {sent : List Byte} (h : s.SentSince sent t) (ha : t.snkAnswer = .ok) :
    s.SentSince (sent ++ [b]) (t.bwrite b) := by
  obtain ⟨hb, hl⟩ := h
  refine ⟨?_, fun l hs => by simp [hl l hs, ListSide.wrote]⟩
  rw [← List.append_assoc, ← hb]
  simp [State.sentBytes, ha, Event.sentByte?]

theorem State.SentSince.bclose {sent : List Byte} (h : s.SentSince sent t) : s.SentSince sent t.bclose := by
  obtain ⟨hb, hl⟩ := h
  exact ⟨by rw [← hb]; simp [State.sentBytes, Event.sentByte?], fun l hs => by simp [hl l hs]⟩

theorem State.SentSince.respond {sent : List Byte} (h : s.SentSince sent t) (st : St) (flag : Bool) (data : Byte) :
    s.SentSince sent (t.respond st flag data) := by
  obtain ⟨hb, hl⟩ := h
  exact ⟨by rw [← hb]; simp [State.sentBytes, Event.sentByte?], hl⟩

end

/-! The write session -/

/-- `t` is the write session that was opened at `s` and has been given the nibbles `ns`: they are those of the bytes sent
and the pending one. -/
structure WriteSession (s : State) (ns : List Nibble) (t : State) : Prop where
  session : t.InSession .write
  sideOk : t.ByteSideOk
  stream : ∃ sent, s.SentSince sent t ∧ ns = unpackFormat sent ++ t.pending

section
variable {s t : State} {ns : List Nibble}

theorem WriteSession.of_open (hs : s.Ready) (hside : s.ByteSideOk) :
    ∃ t, hostCmd (.openSession .write) s = .ok (⟨.ok, false, 0x00⟩, t) ∧ WriteSession s [] t := by
  obtain ⟨hr, hf, hm⟩ := hs
  exact ⟨_, hostCmd_open ⟨hr, hf, hm⟩ hside.answers.1, ⟨hr, hf, rfl⟩, hside.bopen .write, [],
    s.sentSince_bopen.respond .., rfl⟩

theorem WriteSession.wrn (h : WriteSession s ns t) (n : Nibble) :
    ∃ r t', hostCmd (.wrn n) t = .ok (r, t') ∧ WriteSession s (ns ++ [n]) t' := by
  obtain ⟨⟨hr, hf, hm⟩, hside, sent, hsent, rfl⟩ := h
  have ha := hside.answers.2.1
  cases hpv : t.pv with
  | false =>
    refine ⟨_, _, hostCmd_respond hr (.wrnBuffers hf hm hpv) nofun, ⟨hr, hf, hm⟩, hside, sent, hsent.respond .., ?_⟩
    simp [State.pending, hpv]
  | true =>
    refine ⟨_, _, hostCmd_respond hr (.wrnSends hf hm hpv ha) nofun, ⟨hr, hf, hm⟩, hside.bwrite, _,
      (hsent.bwrite ha).respond .., ?_⟩
    simp [State.pending, hpv, unpackFormat_append]

theorem WriteSession.writeNibbles (h : WriteSession s ns t) (ms : List Nibble) :
    ∃ t', writeNibbles ms t = .ok t' ∧ WriteSession s (ns ++ ms) t' := by
  induction ms generalizing ns t with
  | nil => exact ⟨t, rfl, by rwa [List.append_nil]⟩
  | cons m ms ih =>
    obtain ⟨r, u, hu, hw⟩ := h.wrn m
    obtain ⟨t', ht', hw'⟩ := ih hw
    exact ⟨t', by simp only [Machine.writeNibbles, hu, ht'], by simpa using hw'⟩

/-- LENC's response gives the byte's code group and touches no stream (R141, R142; 41_lut.md R128). -/
theorem WriteSession.lenc (h : WriteSession s ns t) (x : Byte) :
    ∃ r t', hostCmd (.lenc x) t = .ok (r, t') ∧ groupAfter r x = codeGroup x ∧ WriteSession s ns t' := by
  obtain ⟨⟨hr, hf, hm⟩, hside, sent, hsent, hns⟩ := h
  cases hx : clut.scan x with
  | some i =>
    exact ⟨_, _, hostCmd_respond hr (.lencHit hf hx) nofun, by simp [groupAfter, codeGroup, hx], ⟨hr, hf, hm⟩, hside, sent,
      hsent.respond .., hns⟩
  | none =>
    exact ⟨_, _, hostCmd_respond hr (.lencMiss hf hx) nofun, by simp [groupAfter, codeGroup, hx], ⟨hr, hf, hm⟩, hside, sent,
      hsent.respond .., hns⟩

theorem WriteSession.compressBytes (h : WriteSession s ns t) (raw : List Byte) :
    ∃ t', compressBytes raw t = .ok t' ∧ WriteSession s (ns ++ codeNibbles raw) t' := by
  induction raw generalizing ns t with
  | nil => exact ⟨t, rfl, by simpa [codeNibbles] using h⟩
  | cons x xs ih =>
    obtain ⟨r, u, hu, hgroup, hlenc⟩ := h.lenc x
    obtain ⟨v, hv, hwrite⟩ := hlenc.writeNibbles (codeGroup x)
    obtain ⟨t', ht', hrest⟩ := ih hwrite
    exact ⟨t', by simp only [Machine.compressBytes, hu, hgroup, hv, ht'], by simpa [codeNibbles_cons] using hrest⟩

/-- CLOSE flushes a pending nibble with the pad, so the stream is the packed format (R143, R149). -/
theorem WriteSession.close (h : WriteSession s ns t) :
    ∃ r t', hostCmd .close t = .ok (r, t') ∧ t'.Ready ∧ s.SentSince (packFormat ns) t' := by
  obtain ⟨⟨hr, hf, hm⟩, hside, sent, hsent, rfl⟩ := h
  obtain ⟨-, hw, hc⟩ := hside.answers
  rw [packFormat_unpackFormat_append]
  cases hpv : t.pv with
  | false =>
    rw [State.pending_of_not_pv hpv, packFormat_nil, List.append_nil]
    exact ⟨_, _, hostCmd_respond hr (.closes hf (.inr ⟨hm, hpv⟩) hc) nofun, ⟨hr, hf, rfl⟩, hsent.bclose.respond ..⟩
  | true =>
    rw [State.pending_of_pv hpv, packFormat_odd]
    exact ⟨_, _, hostCmd_respond hr (.flushCloses hf hm hpv hw hside.bwrite.answers.2.2) nofun, ⟨hr, hf, rfl⟩,
      (hsent.bwrite hw).bclose.respond ..⟩

end

/-- Settles O56: the write session is given the code groups of the input, and its CLOSE completes the packed format. -/
theorem compressWritesPackedFormat : Obligations.CompressWritesPackedFormat := by
  intro raw s hs hside
  obtain ⟨t, hopen, ht⟩ := WriteSession.of_open hs hside
  obtain ⟨u, hbytes, hu⟩ := ht.compressBytes raw
  obtain ⟨r, v, hclose, hready, hsent, hlists⟩ := hu.close
  have hrun : compress raw s = ⟨.ok, [], v⟩ := by simp [compress, hopen, hbytes, hclose]
  rw [hrun]
  exact ⟨rfl, hsent, hready, hlists⟩

end Sys2Proof.Machine

/-! ## Decompress: O57 -/

namespace Sys2Proof.Machine

/-! A byte side that serves a file -/

/-- The byte side `e` of a read session opened on the byte side `e₀` still has `rest` to serve and then EOD for ever; the
deterministic environment has moved its cursor over what was served before, and nothing else (20_memory.md R57). -/
inductive ServesRest : ByteSide → List Byte → ByteSide → Prop
  | scripted {q₀ q : Scripts} {rest : List Byte} (hreads : q.reads = ⟨rest.map .byte, some .eod⟩)
      (hcloses : q.closes = ⟨[], some .ok⟩) : ServesRest (.scripted q₀) rest (.scripted q)
  | lists {l : ListSide} {served rest : List Byte} (h : l.attached = served ++ rest) :
      ServesRest (.lists l) rest (.lists { l.opened .read with cursor := served.length })

theorem State.Serves.bopen {s : State} {file : List Byte} (h : s.Serves file) :
    s.openAnswer = .ok ∧ ServesRest s.env file (s.env.opened .read) := by
  unfold State.Serves at h
  split at h
  next q he =>
    obtain ⟨ho, hr, hc⟩ := h
    rw [he]
    exact ⟨by simp [State.openAnswer, he, ho], .scripted hr hc⟩
  next l he =>
    rw [he]
    exact ⟨State.openAnswer_lists he, .lists (served := []) h⟩

section
variable {e₀ : ByteSide} {t : State} {b : Byte} {rest : List Byte}

theorem ServesRest.bread_cons (h : ServesRest e₀ (b :: rest) t.env) :
    t.srcAnswer = .byte b ∧ ServesRest e₀ rest t.env.read := by
  generalize he : t.env = e at h
  cases h with
  | scripted hr hc => exact ⟨by simp [State.srcAnswer, he, hr], .scripted (by simp [hr]) hc⟩
  | @lists l served _ h =>
    refine ⟨by simp [State.srcAnswer, he, ListSide.srcAnswer, h], ?_⟩
    have hlt : served.length < l.attached.length := by simp [h]
    simpa [ListSide.read, hlt] using ServesRest.lists (served := served ++ [b]) (by simpa using h)

theorem ServesRest.bread_nil (h : ServesRest e₀ [] t.env) :
    t.srcAnswer = .eod ∧ ServesRest e₀ [] t.env.read := by
  generalize he : t.env = e at h
  cases h with
  | scripted hr hc => exact ⟨by simp [State.srcAnswer, he, hr], .scripted (by simp [hr]) hc⟩
  | @lists l served _ h =>
    refine ⟨by simp [State.srcAnswer, he, ListSide.srcAnswer, h], ?_⟩
    simpa [ListSide.read, h] using ServesRest.lists h

theorem ServesRest.bclose (h : ServesRest e₀ rest t.env) : t.closeAnswer = .ok ∧ ServesRest e₀ rest t.env.closed := by
  generalize he : t.env = e at h
  cases h with
  | scripted hr hc => exact ⟨by simp [State.closeAnswer, he, hc], .scripted hr (by simp [hc])⟩
  | lists h => exact ⟨State.closeAnswer_lists he, .lists h⟩

/-- With nothing left to serve the cursor is at the end of the stream. -/
theorem ServesRest.lists_nil {l : ListSide} {e : ByteSide} (h : ServesRest (.lists l) [] e) :
    e = .lists { l.opened .read with cursor := l.attached.length } := by
  cases h with
  | lists h => rw [h, List.append_nil]

end

/-! The read session -/

/-- `t` is a read session opened on the byte side `e₀` that will still deliver the nibbles `ns`: the pending one, and those of
the bytes left to serve. -/
structure ReadSession (e₀ : ByteSide) (ns : List Nibble) (t : State) : Prop where
  session : t.InSession .read
  stream : ∃ rest, ServesRest e₀ rest t.env ∧ ns = t.pending ++ unpackFormat rest

section
variable {e₀ : ByteSide} {n : Nibble} {ns : List Nibble} {t : State}

theorem ReadSession.of_open {s : State} {file : List Byte} (hs : s.Ready) (hserves : s.Serves file) :
    ∃ t, hostCmd (.openSession .read) s = .ok (⟨.ok, false, 0x00⟩, t) ∧ ReadSession s.env (unpackFormat file) t := by
  obtain ⟨hr, hf, hm⟩ := hs
  exact ⟨_, hostCmd_open ⟨hr, hf, hm⟩ hserves.bopen.1, ⟨hr, hf, rfl⟩, file, hserves.bopen.2, rfl⟩

/-- RDN delivers the next nibble of the stream (40_stream.md R95, R96). -/
theorem ReadSession.rdn_cons (h : ReadSession e₀ (n :: ns) t) :
    ∃ t', hostCmd .rdn t = .ok (⟨.ok, false, zextNibble n⟩, t') ∧ ReadSession e₀ ns t' := by
  obtain ⟨⟨hr, hf, hm⟩, rest, hrest, hns⟩ := h
  cases hpv : t.pv with
  | true =>
    rw [State.pending_of_pv hpv] at hns
    obtain ⟨rfl, rfl⟩ := List.cons_eq_cons.1 hns
    exact ⟨_, hostCmd_respond hr (.rdnPending hf hm hpv) nofun, ⟨hr, hf, hm⟩, rest, hrest, rfl⟩
  | false =>
    rw [State.pending_of_not_pv hpv] at hns
    cases rest with
    | nil => cases hns
    | cons b rest =>
      obtain ⟨rfl, rfl⟩ := List.cons_eq_cons.1 hns
      obtain ⟨ha, hread⟩ := hrest.bread_cons
      exact ⟨_, hostCmd_respond hr (.rdnByte hf hm hpv ha) nofun, ⟨hr, hf, hm⟩, rest, hread, rfl⟩

/-- RDN at the end of the stream answers EOS, and stays there (40_stream.md R97). -/
theorem ReadSession.rdn_nil (h : ReadSession e₀ [] t) :
    ∃ t', hostCmd .rdn t = .ok (⟨.eos, false, 0x00⟩, t') ∧ ReadSession e₀ [] t' := by
  obtain ⟨⟨hr, hf, hm⟩, rest, hrest, hns⟩ := h
  cases hpv : t.pv with
  | true => rw [State.pending_of_pv hpv] at hns; cases hns
  | false =>
    rw [State.pending_of_not_pv hpv] at hns
    cases rest with
    | cons b rest => cases hns
    | nil =>
      obtain ⟨ha, hread⟩ := hrest.bread_nil
      refine ⟨_, hostCmd_respond hr (.rdnEos hf hm hpv ha) nofun, ⟨hr, hf, hm⟩, [], hread, ?_⟩
      simp [State.pending, hpv]

/-- LDEC reads the table and touches no stream (41_lut.md R127, R128). -/
theorem ReadSession.ldec (h : ReadSession e₀ ns t) (i : Nibble) :
    ∃ r t', hostCmd (.ldec i) t = .ok (r, t') ∧ r.data = clut.entry i ∧ ReadSession e₀ ns t' := by
  obtain ⟨⟨hr, hf, hm⟩, hstream⟩ := h
  exact ⟨_, _, hostCmd_respond hr (.ldec hf) nofun, rfl, ⟨hr, hf, hm⟩, hstream⟩

theorem ReadSession.readEscaped_whole {hi lo : Nibble} (h : ReadSession e₀ (hi :: lo :: ns) t) :
    ∃ t', readEscaped t = .ok (some (packNibbles hi lo), t') ∧ ReadSession e₀ ns t' := by
  obtain ⟨u, hhigh, hu⟩ := h.rdn_cons
  obtain ⟨v, hlow, hv⟩ := hu.rdn_cons
  exact ⟨v, by simp [readEscaped, hhigh, hlow], hv⟩

theorem ReadSession.readEscaped_truncated (h : ReadSession e₀ ns t) (hns : ns.length < 2) :
    ∃ t', readEscaped t = .ok (none, t') ∧ ReadSession e₀ [] t' := by
  match ns, hns with
  | [], _ =>
    obtain ⟨u, heos, hu⟩ := h.rdn_nil
    exact ⟨u, by simp [readEscaped, heos], hu⟩
  | [hi], _ =>
    obtain ⟨u, hhigh, hu⟩ := h.rdn_cons
    obtain ⟨v, heos, hv⟩ := hu.rdn_nil
    exact ⟨v, by simp [readEscaped, hhigh, heos], hv⟩

theorem zextNibble_escIdx : zextNibble escIdx = 0 := rfl

/-- The loop puts out what the parser gives for the nibbles still to come, one turn at most for each of them and one for the
end (R144 to R147). -/
theorem ReadSession.decompressLoop {fuel : Nat} (h : ReadSession e₀ ns t) (hfuel : ns.length < fuel) (out : List Byte) :
    ∃ t', decompressLoop fuel out t = ⟨.ok, out ++ parseNibbles ns, t'⟩ ∧ ReadSession e₀ [] t' := by
  induction fuel generalizing ns t out with
  | zero => exact absurd hfuel (Nat.not_lt_zero _)
  | succ fuel ih =>
    match ns with
    | [] =>
      obtain ⟨u, hrdn, hu⟩ := h.rdn_nil
      exact ⟨u, by simp [Machine.decompressLoop, hrdn], hu⟩
    | n :: rest =>
      obtain ⟨u, hrdn, hu⟩ := h.rdn_cons
      by_cases hn : n = escIdx
      · subst hn
        match rest with
        | [] | [_] =>
          obtain ⟨v, hesc, hv⟩ := hu.readEscaped_truncated (by simp)
          exact ⟨v, by simp [Machine.decompressLoop, hrdn, zextNibble_escIdx, hesc], hv⟩
        | hi :: lo :: rest =>
          obtain ⟨v, hesc, hv⟩ := hu.readEscaped_whole
          obtain ⟨t', hloop, ht'⟩ := ih hv (by simp at hfuel; omega) (out ++ [packNibbles hi lo])
          exact ⟨t', by simp [Machine.decompressLoop, hrdn, zextNibble_escIdx, hesc, hloop], ht'⟩
      · have hdirect : zextNibble n ≠ 0x00#8 := mt (zextNibble_eq_zero n).1 hn
        obtain ⟨r, v, hldec, hdata, hv⟩ := hu.ldec n
        obtain ⟨t', hloop, ht'⟩ := ih hv (by simpa using hfuel) (out ++ [clut.entry n])
        exact ⟨t', by simp [Machine.decompressLoop, hrdn, hdirect, hldec, hdata, hloop, parseNibbles_direct hn], ht'⟩

theorem ReadSession.close (h : ReadSession e₀ [] t) :
    ∃ r t', hostCmd .close t = .ok (r, t') ∧ t'.Ready ∧ ServesRest e₀ [] t'.env := by
  obtain ⟨⟨hr, hf, hm⟩, rest, hrest, hns⟩ := h
  obtain rfl : rest = [] := by
    cases rest with
    | nil => rfl
    | cons b rest => simp at hns
  obtain ⟨ha, hclosed⟩ := hrest.bclose
  exact ⟨_, _, hostCmd_respond hr (.closes hf (.inl hm) ha) nofun, ⟨hr, hf, rfl⟩, hclosed⟩

end

/-- Settles O57: the read session delivers the nibbles of the file, and the loop parses them. -/
theorem decompressParsesFile : Obligations.DecompressParsesFile := by
  intro file fuel s hs hserves hfuel
  obtain ⟨t, hopen, ht⟩ := ReadSession.of_open hs hserves
  obtain ⟨u, hloop, hu⟩ := ht.decompressLoop (by rwa [unpackFormat_length]) []
  obtain ⟨r, v, hclose, hready, hrest⟩ := hu.close
  have hrun : decompress fuel s = ⟨.ok, parseNibbles (unpackFormat file), v⟩ := by
    simp [decompress, hopen, hloop, hclose]
  rw [hrun]
  refine ⟨rfl, rfl, hready, fun l hl => ?_⟩
  rw [hl] at hrest
  exact hrest.lists_nil

end Sys2Proof.Machine

/-! PROOFS. The obligations of 60_exceptions.md. The taking of a fault and the absorbing state are read off `WordEffect` and
`step_cases`; for the order of the checks each outcome's requests are written out beside it. -/

/-! ## Taking a fault, and staying faulted: O48, O49 -/

namespace Sys2Proof.Machine

/-- A word that takes a fault writes no register but FCODE (60_exceptions.md R165). -/
theorem WordEffect.registers_of_raise {s t : State} {d : Decoded} (h : WordEffect s d t) (hs : s.fcode = none)
    (ht : t.fcode ≠ none) : t.mode = s.mode ∧ t.pv = s.pv ∧ t.pend = s.pend := by
  cases h with
  | opens | rdnPending | rdnByte | wrnBuffers | wrnSends | closes | flushCloses => exact absurd hs ht
  | _ => exact ⟨rfl, rfl, rfl⟩

/-- Settles O48: an unfaulted block absorbs nothing, so the word raises a fault or answers something else. -/
theorem faultEntryWritesOnlyFcode : Obligations.FaultEntryWritesOnlyFcode := by
  intro w s hs
  obtain ⟨t, reqs, r, ha, he, hr⟩ := acceptWord_answers w s
  refine ⟨t, reqs, r, ha, ?_⟩
  rcases he.fault_cases hr with ⟨-, ⟨hfaulted, -⟩, -⟩ | ⟨rfl, -, ht⟩ | ⟨hst, -, ht⟩
  · exact absurd hs hfaulted
  · obtain ⟨hm, hpv, hpend⟩ := he.registers_of_raise hs ht
    exact ⟨iff_of_true rfl ht, fun c hc => ⟨hm, hpv, hpend, by rw [hc]; rfl⟩⟩
  · rw [ht, hs]
    exact ⟨iff_of_false hst (· rfl), nofun⟩

/-- Settles O49: a faulted block answers an illegal word and a command alike, and outside reset a faulted step keeps
FCODE, since only an unfaulted word may write it. -/
theorem faultedBlockAbsorbs : Obligations.FaultedBlockAbsorbs := by
  refine ⟨fun w s c hf hstat => ?_, fun s t c h hf => ?_⟩
  · cases hd : decode w with
    | illegal why => exact (illegalWordsFault.2 w why s hd).2 c hf
    | legal i =>
      rw [acceptWord_legal hd]
      exact exec_faulted (by rintro rfl; exact hstat hd) hf
  · rcases step_cases h with ⟨hn, -⟩ | ⟨-, -, rfl⟩ | ⟨w, rest, -, -, he⟩
    · exact .inr hn
    · exact .inl hf
    · rcases he.fcode_cases with ht | ⟨hs, -⟩
      · exact .inl (ht.trans hf)
      · exact absurd (hf.symm.trans hs) nofun

end Sys2Proof.Machine

/-! ## The order of the checks: O50 -/

namespace Sys2Proof.Machine

@[simp] theorem fcodeByte_illegalCmd : fcodeByte (some .illegalCmd) = 0x01 := rfl
@[simp] theorem Event.isRequest_bopen (dir : Direction) (a : OpenOutcome) : (Event.bopen dir a).isRequest = true := rfl
@[simp] theorem Event.isRequest_bread (a : SrcAnswer) : (Event.bread a).isRequest = true := rfl

section
variable {s u : State} {st : St} {flag : Bool} {data : Byte}

/-- The one response after the requests `reqs`; a FAULT response too is sent by `respond`. -/
theorem Answers.of_requests {reqs : List Event} (hu : u.trace = s.trace ++ reqs)
    (hreqs : ∀ e ∈ reqs, e.isRequest = true) :
    Answers (.next (u.respond st flag data)) s (u.respond st flag data) reqs ⟨st, flag, data⟩ :=
  ⟨rfl, by rw [State.respond_trace, hu], hreqs⟩

theorem Answers.of_no_request (hu : u.trace = s.trace) :
    Answers (.next (u.respond st flag data)) s (u.respond st flag data) [] ⟨st, flag, data⟩ :=
  .of_requests (by rw [hu, List.append_nil]) nofun

end

/-- Settles O50: the outcomes of a word, in the order of the checks that select them, each with the requests it made. -/
theorem checkOrderDecides : Obligations.CheckOrderDecides := by
  intro w s
  obtain ⟨t, ht, he⟩ := acceptWord_effect w s
  rw [ht]
  refine ⟨t, ?_⟩
  generalize decode w = d at he
  cases he with
  -- an illegal word, STAT, and a faulted block
  | illegal hf => exact ⟨[], _, .of_no_request rfl, by simp [hf]⟩
  | stat => exact ⟨[], _, .of_no_request rfl, rfl, rfl, rfl⟩
  | @absorbed _ c hd hf =>
    rw [State.answerFaulted_of_some hf]
    refine ⟨[], ⟨.fault, false, c.code.setWidth 8⟩, .of_no_request rfl, ?_⟩
    cases d with
    | illegal why => simp [hf]
    | legal i =>
      cases i with
      | stat => exact absurd rfl hd
      | _ => simp [hf]
  -- the session checks: no request
  | openTwice hf hm =>
    refine ⟨[], _, .of_no_request rfl, ?_⟩
    cases h : s.mode with
    | idle => exact absurd h hm
    | read | write => simp [hf]
  | rdnNotOpen hf hm | rdnWrongDir hf hm | wrnNotOpen hf hm | wrnWrongDir hf hm | closeNotOpen hf hm =>
    exact ⟨[], _, .of_no_request rfl, by simp [hf, hm]⟩
  -- execution: no request and no fault, or the last request decides
  | rdnPending hf hm | wrnBuffers hf hm => exact ⟨[], _, .of_no_request rfl, by simp [hf, hm]⟩
  | lencHit hf | lencMiss hf | ldec hf => exact ⟨[], _, .of_no_request rfl, by simp [hf]⟩
  | openFails hf hm | opens hf hm =>
    exact ⟨[.bopen _ _], _, .of_requests rfl (by simp), by simp [hf, hm, Event.isIoErr]⟩
  | rdnByte hf hm _ ha | rdnEos hf hm _ ha | rdnIoErr hf hm _ ha =>
    exact ⟨[.bread _], _, .of_requests rfl (by simp), by simp [hf, hm, ha, Event.isIoErr]⟩
  | wrnSends hf hm _ ha | wrnIoErr hf hm _ ha | flushIoErr hf hm _ ha =>
    exact ⟨[.bwrite _ _], _, .of_requests rfl (by simp), by simp [hf, hm, ha, Event.isIoErr]⟩
  | closes hf hm ha | closeIoErr hf hm ha =>
    refine ⟨[.bclose _], _, .of_requests rfl (by simp), ?_⟩
    rcases hm with hm | ⟨hm, -⟩ <;> simp [hf, hm, ha, Event.isIoErr]
  | flushCloses hf hm _ hw ha | flushCloseIoErr hf hm _ hw ha =>
    exact ⟨[.bwrite _ _, .bclose _], _, .of_requests (List.append_assoc ..) (by simp),
      by simp [hf, hm, hw, ha, Event.isIoErr]⟩

end Sys2Proof.Machine

/-! PROOFS. The obligations of 70_reset_and_hazards.md. A run is peeled one step at a time; the reset steps that
raise and release RST are computed in full. -/

/-! ## Runs of the machine -/

namespace Sys2Proof.Machine

theorem run_succ_of_next {s t : State} (k : Nat) (h : step s = .next t) : core.run (k + 1) s = core.run k t := by
  have hcore : core.step s = .next t := h
  simp only [Host.Core.run, hcore]

theorem run_one (s : State) : core.run 1 s = step s := by
  change core.run 1 s = core.step s
  simp only [Host.Core.run]
  cases core.step s <;> rfl

end Sys2Proof.Machine

/-! ## The first command after reset: O12 -/

namespace Sys2Proof.Machine

/-- An RST input is a reset step when it asserts RST or RST is asserted before it, so releasing RST is one too
(10_state.md R22). -/
theorem step_rst_of_asserted {s : State} {level : Bool} {rest : List HostInput} (h : s.input = .rst level :: rest)
    (hr : (s.rst || level) = true) : step s = .next { s.resetRegisters with rst := level, input := rest } := by
  rw [step_rst h, State.underRst_of_asserted hr]
  rfl

/-- Settles O12: RST is raised, then released, each a reset step, and the third step accepts the word. -/
theorem firstCommandAfterReset : Obligations.FirstCommandAfterReset := by
  intro s w rest hi
  have raised := step_rst_of_asserted hi (Bool.or_true _)
  have released := step_rst_of_asserted
    (s := { s.resetRegisters with rst := true, input := .rst false :: .cmd w :: rest }) rfl rfl
  exact (run_succ_of_next 2 raised).trans <| (run_succ_of_next 1 released).trans <|
    (run_one _).trans (step_word_accepted rfl rfl)

end Sys2Proof.Machine

/-! PROOFS. The obligations that span families: first the encoding and the step, then what each command leaves alone and asks
for, then whole sessions and the codec's round trip. Every one is read off `WordEffect`, and a session by an invariant that
one command keeps. -/

namespace Sys2Proof

/-! ## The words of the opcode table: O2, O4 -/

/-- Settles O2: a word decodes to a command where it is the command's encoding, and the three others fail one check
each. -/
theorem specWordsDecode : Obligations.SpecWordsDecode := by
  have legal {w : CmdWord} {i : Instr} : encode i = w → decode w = .legal i := decode_eq_legal_iff.2
  exact ⟨legal rfl, legal rfl, legal rfl, legal rfl, legal rfl, legal rfl, legal rfl, legal rfl, rfl, rfl, rfl⟩

/-- Every value of a width, once. -/
def allWords (width : Nat) : List (BitVec width) := (List.finRange (2 ^ width)).map BitVec.ofFin

theorem allWords_nodup (width : Nat) : (allWords width).Nodup :=
  (List.nodup_finRange _).map fun _ _ h => BitVec.ofFin.inj h

theorem mem_allWords {width : Nat} (w : BitVec width) : w ∈ allWords width :=
  List.mem_map.2 ⟨w.toFin, List.mem_finRange _, rfl⟩

/-- Every command, once: the operands of 30_encoding.md R73. -/
def allInstrs : List Instr :=
  [.openSession .read, .openSession .write, .rdn, .close, .stat] ++ (allWords 4).map .wrn ++ (allWords 4).map .ldec ++
    (allWords 8).map .lenc

theorem mem_allInstrs (i : Instr) : i ∈ allInstrs := by
  cases i with
  | openSession dir => cases dir <;> simp [allInstrs]
  | wrn n | ldec n | lenc n => simp [allInstrs, mem_allWords]
  | rdn | close | stat => simp [allInstrs]

theorem allInstrs_nodup : allInstrs.Nodup := by
  have hwrn : ((allWords 4).map Instr.wrn).Nodup := (allWords_nodup 4).map fun _ _ h => Instr.wrn.inj h
  have hldec : ((allWords 4).map Instr.ldec).Nodup := (allWords_nodup 4).map fun _ _ h => Instr.ldec.inj h
  have hlenc : ((allWords 8).map Instr.lenc).Nodup := (allWords_nodup 8).map fun _ _ h => Instr.lenc.inj h
  simp [allInstrs, List.nodup_append, hwrn, hldec, hlenc, or_imp, forall_and]

theorem encode_injective : Function.Injective encode := fun _ _ h =>
  Decoded.legal.inj ((decode_eq_legal_iff.2 rfl).symm.trans (decode_eq_legal_iff.2 h.symm))

/-- Settles O4: the legal words are the encodings of the commands, 5 + 16 + 16 + 256 of them. -/
theorem legalWordsAre293 : Obligations.LegalWordsAre293 := by
  refine ⟨allInstrs.map encode, allInstrs_nodup.map encode_injective, by simp [allInstrs, allWords],
    fun w => ?_⟩
  simp [decode_eq_legal_iff, mem_allInstrs]

end Sys2Proof

/-! ## One step: O53, O13, O14, O54 -/

namespace Sys2Proof.Machine

/-- Settles O53: MODE is IDLE with nothing pending, and RST is released. -/
theorem resetMeetsInv : Obligations.ResetMeetsInv := ⟨fun _ => rfl, nofun⟩

/-- Settles O13: with RST released a step accepts the word, and accepting it is its decoding's effect. -/
theorem stepRunsDecodedCommand : Obligations.StepRunsDecodedCommand := fun _ _ _ hr hi =>
  ⟨fun _ hd => (step_word_accepted hi hr).trans (acceptWord_legal hd _),
    fun _ hd => (step_word_accepted hi hr).trans (acceptWord_illegal hd _)⟩

/-- Settles O14: waiting, RST and an ignored word give a next state outright, an accepted word one of its effects. -/
theorem stepAlwaysAnswers : Obligations.StepAlwaysAnswers := by
  intro s
  match hi : s.input, hr : s.rst with
  | [], _ => exact ⟨_, step_waiting hi⟩
  | .rst _ :: _, _ => exact ⟨_, step_rst hi⟩
  | .cmd _ :: _, true => exact ⟨_, step_word_under_rst hi hr⟩
  | .cmd w :: rest, false =>
    obtain ⟨t, ht, -⟩ := acceptWord_effect w { s with input := rest }
    exact ⟨t, (step_word_accepted hi hr).trans ht⟩

section
variable {s s' t : State}

/-- The converse of `WordEffect.of_acceptWord`. -/
theorem WordEffect.acceptWord_eq {w : CmdWord} (h : WordEffect s (decode w) t) : acceptWord w s = .next t := by
  cases hd : decode w with
  | legal i =>
    rw [hd] at h
    exact (acceptWord_legal hd s).trans h.exec_eq
  | illegal why =>
    rw [hd] at h
    cases h with
    | absorbed _ hf => exact acceptWord_illegal_faulted hd hf
    | illegal hf => exact acceptWord_illegal_unfaulted hd hf

/-- `s` with another value of PEND. -/
def State.withPend (s : State) (p : Nibble) : State := { s with pend := p }

theorem State.sameButIdlePend_withPend {p : Nibble} (h : s.pv = true → s.pend = p) :
    s.SameButIdlePend (s.withPend p) := ⟨rfl, h⟩

/-- States that differ at most in PEND while PV = 0: one is the other with some PEND, and while PV = 1 they are one. -/
theorem State.SameButIdlePend.eq_withPend (h : s.SameButIdlePend s') :
    s' = s.withPend s'.pend ∧ (s.pv = true → s' = s) := by
  obtain ⟨mode, pv, pend, fcode, rst, input, env, trace⟩ := s
  obtain ⟨mode', pv', pend', fcode', rst', input', env', trace'⟩ := s'
  obtain ⟨heq, hpend⟩ := h
  cases heq
  exact ⟨rfl, fun hpv => by cases hpend hpv; rfl⟩

/-- While PV = 0 no outcome of a word reads PEND, and one that sets PV sets PEND too (10_state.md R29). -/
theorem WordEffect.of_idle_pend {d : Decoded} (h : WordEffect s d t) (hs : s.pv = false) (p : Nibble) :
    ∃ q, WordEffect (s.withPend p) d (t.withPend q) ∧ (t.pv = true → t.pend = q) := by
  have idle {u : State} (hu : u.pv = false) : u.pv = true → u.pend = p := fun h => absurd (hu.symm.trans h) nofun
  cases h with
  | rdnByte hf hm hpv ha => exact ⟨_, .rdnByte hf hm hpv ha, fun _ => rfl⟩
  | wrnBuffers hf hm hpv => exact ⟨_, .wrnBuffers hf hm hpv, fun _ => rfl⟩
  | rdnPending _ _ hpv | wrnSends _ _ hpv | wrnIoErr _ _ hpv | flushCloses _ _ hpv | flushCloseIoErr _ _ hpv
  | flushIoErr _ _ hpv => exact absurd (hs.symm.trans hpv) nofun
  | absorbed hd hf => exact ⟨p, .absorbed hd hf, idle hs⟩
  | illegal hf => exact ⟨p, .illegal hf, idle hs⟩
  | openFails hf hm ha => exact ⟨p, .openFails hf hm ha, idle hs⟩
  | opens hf hm ha => exact ⟨p, .opens hf hm ha, idle rfl⟩
  | openTwice hf hm => exact ⟨p, .openTwice hf hm, idle hs⟩
  | rdnNotOpen hf hm => exact ⟨p, .rdnNotOpen hf hm, idle hs⟩
  | rdnWrongDir hf hm => exact ⟨p, .rdnWrongDir hf hm, idle hs⟩
  | rdnEos hf hm hpv ha => exact ⟨p, .rdnEos hf hm hpv ha, idle hs⟩
  | rdnIoErr hf hm hpv ha => exact ⟨p, .rdnIoErr hf hm hpv ha, idle hs⟩
  | wrnNotOpen hf hm => exact ⟨p, .wrnNotOpen hf hm, idle hs⟩
  | wrnWrongDir hf hm => exact ⟨p, .wrnWrongDir hf hm, idle hs⟩
  | closeNotOpen hf hm => exact ⟨p, .closeNotOpen hf hm, idle hs⟩
  | closes hf hm ha => exact ⟨p, .closes hf hm ha, idle rfl⟩
  | closeIoErr hf hm ha => exact ⟨p, .closeIoErr hf hm ha, idle hs⟩
  | lencHit hf hi => exact ⟨p, .lencHit hf hi, idle hs⟩
  | lencMiss hf hi => exact ⟨p, .lencMiss hf hi, idle hs⟩
  | ldec hf => exact ⟨p, .ldec hf, idle hs⟩
  | stat => exact ⟨p, .stat, idle hs⟩

/-- The RST level puts the registers at reset or leaves them, whatever PEND is. -/
theorem State.underRst_of_idle_pend (hs : s.pv = false) (p : Nibble) :
    ∃ q, (s.withPend p).underRst = s.underRst.withPend q ∧ (s.underRst.pv = true → s.underRst.pend = q) := by
  cases hr : s.rst with
  | true =>
    rw [State.underRst_of_asserted hr, State.underRst_of_asserted (s := s.withPend p) hr]
    exact ⟨0, rfl, fun _ => rfl⟩
  | false =>
    rw [State.underRst_of_released hr, State.underRst_of_released (s := s.withPend p) hr]
    exact ⟨p, rfl, fun h => absurd (hs.symm.trans h) nofun⟩

/-- While PV = 0 a step does not read PEND, whichever kind of input it takes. -/
theorem step_of_idle_pend (h : step s = .next t) (hs : s.pv = false) (p : Nibble) :
    ∃ q, step (s.withPend p) = .next (t.withPend q) ∧ (t.pv = true → t.pend = q) := by
  match hi : s.input, hr : s.rst with
  | [], _ =>
    cases (step_waiting hi).symm.trans h
    rw [step_waiting (s := s.withPend p) hi]
    simpa using State.underRst_of_idle_pend hs p
  | .rst level :: rest, _ =>
    cases (step_rst hi).symm.trans h
    obtain ⟨q, hq, hpend⟩ := State.underRst_of_idle_pend (s := { s with rst := s.rst || level, input := rest }) hs p
    have hlevel := congrArg (fun u : State => { u with rst := level }) hq
    exact ⟨q, (step_rst (s := s.withPend p) hi).trans (congrArg _ hlevel), hpend⟩
  | .cmd w :: rest, true =>
    cases (step_word_under_rst hi hr).symm.trans h
    exact ⟨0, step_word_under_rst (s := s.withPend p) hi hr, fun _ => rfl⟩
  | .cmd w :: rest, false =>
    obtain ⟨q, hq, hpend⟩ := (WordEffect.of_acceptWord ((step_word_accepted hi hr).symm.trans h)).of_idle_pend hs p
    exact ⟨q, (step_word_accepted (s := s.withPend p) hi hr).trans hq.acceptWord_eq, hpend⟩

end

/-- Settles O54: while PV = 1 the two states are one; while PV = 0 nothing reads PEND. -/
theorem idlePendIsUnobservable : Obligations.IdlePendIsUnobservable := by
  intro s s' t hs h
  obtain ⟨heq, hsame⟩ := hs.eq_withPend
  cases hpv : s.pv with
  | true => exact ⟨t, by rw [hsame hpv, h], State.sameButIdlePend_withPend fun _ => rfl, rfl⟩
  | false =>
    obtain ⟨q, hq, hpend⟩ := step_of_idle_pend h hpv s'.pend
    rw [heq]
    exact ⟨_, hq, State.sameButIdlePend_withPend hpend, rfl⟩

end Sys2Proof.Machine

/-! ## What a command leaves alone and what it asks for: O37, O38, O35 -/

namespace Sys2Proof

/-- The commands that only answer: the lookups and STAT (41_lut.md R128, 42_status.md R136). -/
def Instr.isQuery : Instr → Bool
  | .lenc _ => true
  | .ldec _ => true
  | .stat => true
  | .openSession _ => false
  | .rdn => false
  | .wrn _ => false
  | .close => false

namespace Machine

section
variable {s t : State}

theorem WordEffect.input_eq {d : Decoded} (h : WordEffect s d t) : t.input = s.input := by cases h <;> rfl

/-- OPEN discards a nibble by PV alone (40_stream.md R92). -/
theorem WordEffect.open_pend {dir : Direction} (h : WordEffect s (.legal (.openSession dir)) t) : t.pend = s.pend := by
  cases h <;> rfl

/-- CLOSE flushes or discards a nibble, and clears PV alone (40_stream.md R112, R113). -/
theorem WordEffect.close_pend (h : WordEffect s (.legal .close) t) : t.pend = s.pend := by cases h <;> rfl

/-- Only OPEN and CLOSE write MODE (10_state.md R27). -/
theorem WordEffect.mode_eq {d : Decoded} (h : WordEffect s d t) (hopen : ∀ dir, d ≠ .legal (.openSession dir))
    (hclose : d ≠ .legal .close) : t.mode = s.mode := by
  rcases h.mode_cases with hm | ⟨-, dir, hd, -⟩ | ⟨-, hd, -⟩
  · exact hm
  · exact absurd hd (hopen dir)
  · exact absurd hd hclose

/-- A query only answers, faulted or not. -/
theorem WordEffect.query_registers {i : Instr} (h : WordEffect s (.legal i) t) (hi : i.isQuery = true) :
    t.mode = s.mode ∧ t.pv = s.pv ∧ t.pend = s.pend ∧ t.fcode = s.fcode ∧ t.env = s.env := by
  cases h with
  | absorbed | lencHit | lencMiss | ldec | stat => exact ⟨rfl, rfl, rfl, rfl, rfl⟩
  | _ => cases hi

end

/-- Settles O37: the frame of the command's outcome. -/
theorem registerAccessByCommand : Obligations.RegisterAccessByCommand := by
  intro i s
  obtain ⟨t, ht, he⟩ := exec_effect i s
  refine ⟨t, ht, he.rst_eq, he.input_eq, ?_⟩
  cases i with
  | openSession dir => exact he.open_pend
  | close => exact he.close_pend
  | rdn | wrn => exact he.mode_eq nofun nofun
  | lenc | ldec | stat => exact he.query_registers rfl

/-- Settles O38: the requests of each outcome, in the order the trace has them. -/
theorem requestsPerCommand : Obligations.RequestsPerCommand := by
  intro i s
  obtain ⟨t, ht, he⟩ := exec_effect i s
  rw [ht]
  refine ⟨t, ?_⟩
  cases he with
  | absorbed =>
    refine ⟨[], _, .of_no_request rfl, ?_⟩
    cases i with
    | openSession | rdn | wrn | close => exact .inl rfl
    | lenc | ldec | stat => rfl
  | openTwice | rdnNotOpen | rdnWrongDir | rdnPending | wrnNotOpen | wrnWrongDir | wrnBuffers | closeNotOpen =>
    exact ⟨[], _, .of_no_request rfl, .inl rfl⟩
  | lencHit | lencMiss | ldec | stat => exact ⟨[], _, .of_no_request rfl, rfl⟩
  | openFails | opens => exact ⟨[.bopen _ _], _, .of_requests rfl (by simp), .inr ⟨_, rfl⟩⟩
  | rdnByte | rdnEos | rdnIoErr => exact ⟨[.bread _], _, .of_requests rfl (by simp), .inr ⟨_, rfl⟩⟩
  | wrnSends | wrnIoErr => exact ⟨[.bwrite _ _], _, .of_requests rfl (by simp), .inr ⟨_, rfl⟩⟩
  | closes | closeIoErr => exact ⟨[.bclose _], _, .of_requests rfl (by simp), .inr (.inl ⟨_, rfl⟩)⟩
  | flushIoErr _ _ _ hw =>
    exact ⟨[.bwrite _ _], _, .of_requests rfl (by simp), .inr (.inr (.inl (by rw [hw]; rfl)))⟩
  | flushCloses _ _ _ hw | flushCloseIoErr _ _ _ hw =>
    exact ⟨[.bwrite _ _, .bclose _], _, .of_requests (List.append_assoc ..) (by simp),
      .inr (.inr (.inr ⟨_, by rw [hw]; rfl⟩))⟩

/-- Settles O35: each outcome stands in one row of the table, which its conditions select. -/
theorem sessionLifeCycle : Obligations.SessionLifeCycle := by
  intro i s hs
  obtain ⟨t, ht, he⟩ := exec_effect i s
  rw [ht]
  refine ⟨t, ?_⟩
  cases he with
  | absorbed _ hf => exact absurd (hs.symm.trans hf) nofun
  -- the faulting rows, without a request
  | openTwice hf hm =>
    refine ⟨[], _, .of_no_request rfl, ?_⟩
    cases h : s.mode with
    | idle => exact absurd h hm
    | read | write => exact ⟨h, rfl, rfl, rfl⟩
  | rdnNotOpen _ hm | rdnWrongDir _ hm | wrnNotOpen _ hm | wrnWrongDir _ hm | closeNotOpen _ hm =>
    exact ⟨[], _, .of_no_request rfl, by rw [hm]; exact ⟨hm, rfl, rfl, rfl⟩⟩
  -- the queries, in every mode
  | lencHit | lencMiss | ldec | stat =>
    refine ⟨[], _, .of_no_request rfl, ?_⟩
    cases h : s.mode with
    | idle | read | write => exact ⟨h, rfl, rfl⟩
  -- the session commands in their own mode
  | openFails _ hm ha | opens _ hm ha =>
    exact ⟨[.bopen _ _], _, .of_requests rfl (by simp), by simp [hm, ha]⟩
  | rdnPending _ hm | wrnBuffers _ hm => exact ⟨[], _, .of_no_request rfl, by simp [hm]⟩
  | rdnByte _ hm | rdnEos _ hm | rdnIoErr _ hm =>
    exact ⟨[.bread _], _, .of_requests rfl (by simp), by simp [hm]⟩
  | wrnSends _ hm | wrnIoErr _ hm => exact ⟨[.bwrite _ _], _, .of_requests rfl (by simp), by simp [hm]⟩
  | closes _ hm ha | closeIoErr _ hm ha =>
    refine ⟨[.bclose _], _, .of_requests rfl (by simp), ?_⟩
    rcases hm with hm | ⟨hm, -⟩ <;> simp [hm, ha, Event.isIoErr]
  | flushIoErr _ hm _ hw =>
    exact ⟨[.bwrite _ _], _, .of_requests rfl (by simp), by simp [hm, hw, Event.isIoErr]⟩
  | flushCloses _ hm _ hw ha | flushCloseIoErr _ hm _ hw ha =>
    exact ⟨[.bwrite _ _, .bclose _], _, .of_requests (List.append_assoc ..) (by simp),
      by simp [hm, hw, ha, Event.isIoErr]⟩

end Machine

end Sys2Proof

/-! ## The two lookups: O43 -/

namespace Sys2Proof.Machine

theorem zextNibble_inj {i j : Nibble} : zextNibble i = zextNibble j ↔ i = j :=
  ⟨fun h => by simpa using congrArg lowNibble h, congrArg zextNibble⟩

section
variable {s : State} (hf : s.fcode = none)
include hf

theorem exec_lenc_hit_iff {b : Byte} {i : Nibble} :
    exec (.lenc b) s = .next { s with trace := s.trace ++ [.rsp ⟨.ok, true, zextNibble i⟩] } ↔ clut.scan b = some i := by
  cases hscan : clut.scan b with
  | none =>
    rw [(WordEffect.lencMiss hf hscan).exec_eq]
    simp [State.respond]
  | some j =>
    rw [(WordEffect.lencHit hf hscan).exec_eq]
    simp [State.respond, zextNibble_inj]

theorem exec_ldec_iff {b : Byte} {i : Nibble} (hi : i ≠ 0) :
    exec (.ldec i) s = .next { s with trace := s.trace ++ [.rsp ⟨.ok, false, b⟩] } ↔ clut.entry i = b := by
  have hflag : decide (i = escIdx) = false := decide_eq_false hi
  rw [(WordEffect.ldec hf).exec_eq, hflag]
  simp [State.respond]

end

/-- Settles O43: both answers say that the scan finds `b` at `i`, which is `clut_scan_eq_some_iff`. -/
theorem lookupsAreInverse : Obligations.LookupsAreInverse := by
  intro b i s hf hi
  exact (exec_lenc_hit_iff hf).trans <| clut_scan_eq_some_iff.trans <|
    (and_iff_right hi).trans (exec_ldec_iff hf hi).symm

end Sys2Proof.Machine

/-! ## The round trip and the size of the codec's stream: O58, O60 -/

namespace Sys2Proof.Machine

/-- Settles O58: the file is the packed format of the code groups, in either environment, and it parses to the input. -/
theorem compressDecompressRoundTrip : Obligations.CompressDecompressRoundTrip := by
  have roundTrip {raw : List Byte} {s' : State} {fuel : Nat} (hs' : s'.Ready)
      (hserves : s'.Serves (packFormat (codeNibbles raw))) (hfuel : 2 * (packFormat (codeNibbles raw)).length < fuel) :
      (decompress fuel s').ending = .ok ∧ (decompress fuel s').out = raw := by
    obtain ⟨hend, hout, -, -⟩ := decompressParsesFile _ fuel s' hs' hserves hfuel
    exact ⟨hend, hout.trans (paddingAndTruncationAddNothing raw).1⟩
  refine ⟨fun raw s s' file fuel hs hside hsent hs' hserves hfuel => ?_,
    fun raw s s' l₀ l fuel hs hl₀ hl hs' hserves hfuel => ?_⟩
  · obtain ⟨-, hpacked, -, -⟩ := compressWritesPackedFormat raw s hs hside
    obtain rfl : file = packFormat (codeNibbles raw) := List.append_cancel_left (hsent.symm.trans hpacked)
    exact roundTrip hs' hserves hfuel
  · have hside : s.ByteSideOk := by simp [State.ByteSideOk, hl₀]
    obtain ⟨-, -, -, hstream⟩ := compressWritesPackedFormat raw s hs hside
    cases hl.symm.trans (hstream l₀ hl₀)
    exact roundTrip hs' hserves hfuel

theorem packFormat_length (ns : List Nibble) : (packFormat ns).length = (ns.length + 1) / 2 := by
  induction ns using packFormat.induct with
  | case1 => rfl
  | case2 n => simp
  | case3 hi lo rest ih => simp only [packFormat_pair, List.length_cons, ih]; omega

/-- A hit is one nibble, a miss three (R141, R142). -/
theorem codeGroup_length (x : Byte) : (codeGroup x).length = if (clut.scan x).isSome then 1 else 3 := by
  unfold codeGroup
  cases clut.scan x <;> rfl

theorem codeNibbles_length (raw : List Byte) :
    (codeNibbles raw).length =
      raw.countP (fun x => (clut.scan x).isSome) + 3 * raw.countP (fun x => (clut.scan x).isNone) := by
  induction raw with
  | nil => rfl
  | cons x xs ih =>
    rw [codeNibbles_cons, List.length_append, ih, codeGroup_length, List.countP_cons, List.countP_cons]
    cases clut.scan x <;> simp <;> omega

/-- Settles O60: the groups' lengths added up, and the packed format has half as many bytes, rounded up. -/
theorem compressedSize : Obligations.CompressedSize := by
  intro raw s hs hside
  obtain ⟨-, hpacked, -, -⟩ := compressWritesPackedFormat raw s hs hside
  exact ⟨codeNibbles_length raw, by rw [hpacked, List.length_append, packFormat_length, codeNibbles_length]⟩

end Sys2Proof.Machine

/-! ## What a step adds to the trace and takes from the byte side: O55 -/

namespace Sys2Proof.Machine

/-- The scripts `q'` are what is left of the scripts `q`. -/
def Scripts.LeftOf (q' q : Scripts) : Prop :=
  q'.opens.answers <:+ q.opens.answers ∧ q'.reads.answers <:+ q.reads.answers ∧
  q'.writes.answers <:+ q.writes.answers ∧ q'.closes.answers <:+ q.closes.answers

/-- The events of one step take the deterministic environment from `l` to `l'` (20_memory.md section 2): an OPEN starts its
stream anew, and otherwise the bytes read are the next of the source and the bytes sent are added to the sink. -/
def ListSide.Follows (l : ListSide) (events : List Event) (l' : ListSide) : Prop :=
  if .bopen .read .ok ∈ events then
    l' = { attached := l.later.headD l.attached, later := l.later.tail, source := l.attached, cursor := 0, sink := l.sink }
  else if .bopen .write .ok ∈ events then l' = { l with sink := [] }
  else
    l'.attached = l.attached ∧ l'.later = l.later ∧ l'.source = l.source ∧
    l.source.drop l.cursor = events.filterMap Event.readByte? ++ l'.source.drop l'.cursor ∧
    l'.cursor = l.cursor + (events.filterMap Event.readByte?).length ∧
    l'.sink = l.sink ++ events.filterMap Event.sentByte?

/-- The events of one step take the byte side from `e` to `e'`. -/
def ByteSide.Follows (e : ByteSide) (events : List Event) (e' : ByteSide) : Prop :=
  match e, e' with
  | .scripted q, .scripted q' => q'.LeftOf q
  | .lists l, .lists l' => l.Follows events l'
  | .scripted _, .lists _ => False
  | .lists _, .scripted _ => False

theorem Scripts.LeftOf.refl (q : Scripts) : q.LeftOf q := by simp [Scripts.LeftOf]

theorem ByteSide.follows_nil (e : ByteSide) : e.Follows [] e := by
  cases e with
  | scripted q => exact .refl q
  | lists l => simp [ByteSide.Follows, ListSide.Follows]

/-- A response neither reads nor writes the byte side. -/
theorem ByteSide.Follows.rsp {e e' : ByteSide} {events : List Event} (h : e.Follows events e') (r : Response) :
    e.Follows (events ++ [.rsp r]) e' := by
  cases e with
  | scripted q => cases e' <;> exact h
  | lists l =>
    cases e' with
    | scripted q => exact h
    | lists l' =>
      simpa [ByteSide.Follows, ListSide.Follows, List.filterMap_cons, Event.readByte?, Event.sentByte?] using h

section
variable (s : State)

theorem State.follows_bopen (dir : Direction) : s.env.Follows [.bopen dir s.openAnswer] (s.bopen dir).env := by
  cases he : s.env with
  | scripted q => simp [ByteSide.Follows, Scripts.LeftOf, Script.rest, he, List.tail_suffix]
  | lists l =>
    cases dir <;> simp [ByteSide.Follows, ListSide.Follows, ListSide.opened, he]

theorem State.follows_bread : s.env.Follows [.bread s.srcAnswer] s.bread.env := by
  cases he : s.env with
  | scripted q => simp [ByteSide.Follows, Scripts.LeftOf, Script.rest, he, List.tail_suffix]
  | lists l =>
    have hrest := l.read_rest
    rcases l.read_cases with ⟨b, -, ha, hr⟩ | ⟨-, ha, hr⟩
    · rw [ha, hr] at hrest
      simpa [ByteSide.Follows, ListSide.Follows, Event.readByte?, Event.sentByte?, he, State.srcAnswer_lists he, ha, hr]
        using hrest
    · simp [ByteSide.Follows, ListSide.Follows, Event.readByte?, Event.sentByte?, he, State.srcAnswer_lists he, ha, hr]

theorem State.follows_bwrite (b : Byte) : s.env.Follows [.bwrite b s.snkAnswer] (s.bwrite b).env := by
  cases he : s.env with
  | scripted q => simp [ByteSide.Follows, Scripts.LeftOf, Script.rest, he, List.tail_suffix]
  | lists l => simp [ByteSide.Follows, ListSide.Follows, Event.readByte?, Event.sentByte?, he]

theorem State.follows_bclose : s.env.Follows [.bclose s.closeAnswer] s.bclose.env := by
  cases he : s.env with
  | scripted q => simp [ByteSide.Follows, Scripts.LeftOf, Script.rest, he, List.tail_suffix]
  | lists l => simp [ByteSide.Follows, ListSide.Follows, Event.readByte?, Event.sentByte?, he]

/-- A CLOSE that flushes takes an answer to each of its two requests. -/
theorem State.follows_bwrite_bclose (b : Byte) :
    s.env.Follows [.bwrite b s.snkAnswer, .bclose (s.bwrite b).closeAnswer] (s.bwrite b).bclose.env := by
  cases he : s.env with
  | scripted q => simp [ByteSide.Follows, Scripts.LeftOf, Script.rest, he, List.tail_suffix]
  | lists l => simp [ByteSide.Follows, ListSide.Follows, Event.readByte?, Event.sentByte?, he]

end

/-- Every outcome of a word adds its events at the end of the trace, and they account for the byte side after it. -/
theorem WordEffect.follows {s t : State} {d : Decoded} (h : WordEffect s d t) :
    ∃ events, t.trace = s.trace ++ events ∧ s.env.Follows events t.env := by
  cases h with
  | openFails | opens => exact ⟨_, List.append_assoc .., (s.follows_bopen _).rsp _⟩
  | rdnByte | rdnEos | rdnIoErr => exact ⟨_, List.append_assoc .., s.follows_bread.rsp _⟩
  | wrnSends | wrnIoErr | flushIoErr => exact ⟨_, List.append_assoc .., (s.follows_bwrite _).rsp _⟩
  | closes | closeIoErr => exact ⟨_, List.append_assoc .., s.follows_bclose.rsp _⟩
  | flushCloses | flushCloseIoErr =>
    exact ⟨_, (List.append_assoc ..).trans (List.append_assoc ..), (s.follows_bwrite_bclose _).rsp _⟩
  | _ => exact ⟨_, rfl, s.env.follows_nil.rsp _⟩

theorem step_follows {s t : State} (h : step s = .next t) :
    t.input = s.input.tail ∧ ∃ events, t.trace = s.trace ++ events ∧ s.env.Follows events t.env := by
  rcases step_cases h with ⟨-, level, rfl⟩ | ⟨-, -, rfl⟩ | ⟨w, rest, -, hi, he⟩
  · exact ⟨rfl, [], by simp, s.env.follows_nil⟩
  · exact ⟨rfl, [], by simp, s.env.follows_nil⟩
  · exact ⟨by rw [hi]; exact he.input_eq, he.follows⟩

/-- Settles O55: the events of the step are what its trace has more, and they account for the byte side. -/
theorem stepOnlyAppends : Obligations.StepOnlyAppends := by
  intro s t h
  obtain ⟨hinput, events, htrace, hside⟩ := step_follows h
  have hevents : s.eventsSince t = events := by rw [State.eventsSince, htrace, List.drop_left]
  refine ⟨⟨events, htrace.symm⟩, hinput, ?_⟩
  rw [hevents]
  generalize s.env = e, t.env = e' at hside
  cases e <;> cases e' <;> exact hside

end Sys2Proof.Machine

/-! ## Lists of commands -/

namespace Sys2Proof.Machine

theorem execAll_cons_of_next {i : Instr} {cmds : List Instr} {s t : State} (h : exec i s = .next t) :
    execAll (i :: cmds) s = execAll cmds t := by simp only [execAll, h]

theorem execAll_append_of_next {cmds cmds' : List Instr} {s t : State} (h : execAll cmds s = .next t) :
    execAll (cmds ++ cmds') s = execAll cmds' t := by
  induction cmds generalizing s with
  | nil => cases h; rfl
  | cons i cmds ih =>
    obtain ⟨u, hu, -⟩ := exec_effect i s
    rw [execAll_cons_of_next hu] at h
    rw [List.cons_append, execAll_cons_of_next hu, ih h]

theorem execAll_singleton (i : Instr) (s : State) : execAll [i] s = exec i s := by
  obtain ⟨t, ht, -⟩ := exec_effect i s
  rw [execAll_cons_of_next ht, ht, execAll]

/-- A command that makes one request adds its one response. -/
theorem State.responses_after_request {s u : State} {e : Event} (hu : u.trace = s.trace ++ [e]) (he : e.isRequest = true)
    (st : St) (flag : Bool) (data : Byte) : (u.respond st flag data).responses = s.responses ++ [⟨st, flag, data⟩] :=
  (Answers.of_requests hu (by simpa using he)).responses_eq

theorem State.responses_after_no_request {s u : State} (hu : u.trace = s.trace) (st : St) (flag : Bool) (data : Byte) :
    (u.respond st flag data).responses = s.responses ++ [⟨st, flag, data⟩] :=
  (Answers.of_no_request hu).responses_eq

end Sys2Proof.Machine

/-! ## A run of RDNs: O23 -/

namespace Sys2Proof.Machine

/-- The answer to a BREAD that is not an error: a byte, or EOD. -/
def readAnswer : Option Byte → SrcAnswer
  | some b => .byte b
  | none => .eod

/-- The response that delivers a nibble (40_stream.md R95, R96). -/
def nibbleResponse (n : Nibble) : Response := ⟨.ok, false, zextNibble n⟩

/-- The responses of the RDNs that one answer serves: two for a byte, EOS for EOD (40_stream.md R96, R97). -/
def readResponses : Option Byte → List Response
  | some b => [nibbleResponse (highNibble b), nibbleResponse (lowNibble b)]
  | none => [⟨.eos, false, 0x00⟩]

/-- The byte side `e`, of a session read from `e₀` on, answers the coming BREADs with `as`: by a script that goes on with
`rest`, or in the deterministic environment with what it has left of its stream and then EOD. -/
inductive ComingReads (rest : List SrcAnswer) : ByteSide → List (Option Byte) → ByteSide → Prop
  | scripted {q₀ q : Scripts} {as : List (Option Byte)} (h : q.reads.answers = as.map readAnswer ++ rest) :
      ComingReads rest (.scripted q₀) as (.scripted q)
  | lists {l : ListSide} {bytes : List Byte} {e : ByteSide} (k : Nat) (h : ServesRest (.lists l) bytes e) :
      ComingReads rest (.lists l) (bytes.map some ++ List.replicate k none) e

section
variable {rest : List SrcAnswer} {e₀ : ByteSide} {t : State} {rs rs' : List Response}

theorem ComingReads.bread {a : Option Byte} {as : List (Option Byte)} (h : ComingReads rest e₀ (a :: as) t.env) :
    t.srcAnswer = readAnswer a ∧ ComingReads rest e₀ as t.env.read := by
  generalize has : a :: as = coming, he : t.env = e at h
  cases h with
  | scripted h =>
    subst has
    refine ⟨by simp [State.srcAnswer, Script.answer, he, h], .scripted ?_⟩
    simp [Script.rest, h]
  | @lists _ bytes _ k h =>
    subst he
    cases bytes with
    | cons b bytes =>
      obtain ⟨rfl, rfl⟩ := List.cons_eq_cons.1 has
      obtain ⟨ha, hread⟩ := h.bread_cons
      exact ⟨ha, .lists k hread⟩
    | nil =>
      cases k with
      | zero => cases has
      | succ k =>
        obtain ⟨rfl, rfl⟩ := List.cons_eq_cons.1 has
        obtain ⟨ha, hread⟩ := h.bread_nil
        exact ⟨ha, .lists (bytes := []) k hread⟩

/-- The unfaulted read session `t` will answer its coming RDNs with `rs`: the pending nibble, and then what the coming
answers to BREAD give. -/
structure Delivers (rest : List SrcAnswer) (e₀ : ByteSide) (rs : List Response) (t : State) : Prop where
  unfaulted : t.fcode = none
  reading : t.mode = .read
  coming : ∃ as, ComingReads rest e₀ as t.env ∧ rs = t.pending.map nibbleResponse ++ as.flatMap readResponses

theorem Delivers.rdn {r : Response} (h : Delivers rest e₀ (r :: rs) t) :
    ∃ t', exec .rdn t = .next t' ∧ t'.responses = t.responses ++ [r] ∧ Delivers rest e₀ rs t' := by
  obtain ⟨hf, hm, as, has, hrs⟩ := h
  cases hpv : t.pv with
  | true =>
    rw [State.pending_of_pv hpv] at hrs
    obtain ⟨rfl, rfl⟩ := List.cons_eq_cons.1 hrs
    exact ⟨_, (WordEffect.rdnPending hf hm hpv).exec_eq, State.responses_after_no_request rfl .., hf, hm, as, has, rfl⟩
  | false =>
    rw [State.pending_of_not_pv hpv, List.map_nil, List.nil_append] at hrs
    match as with
    | [] => cases hrs
    | some b :: as =>
      obtain ⟨rfl, rfl⟩ := List.cons_eq_cons.1 (hrs.trans List.flatMap_cons)
      obtain ⟨ha, hread⟩ := has.bread
      exact ⟨_, (WordEffect.rdnByte hf hm hpv ha).exec_eq, State.responses_after_request rfl rfl .., hf, hm, as, hread,
        rfl⟩
    | none :: as =>
      obtain ⟨rfl, rfl⟩ := List.cons_eq_cons.1 (hrs.trans List.flatMap_cons)
      obtain ⟨ha, hread⟩ := has.bread
      refine ⟨_, (WordEffect.rdnEos hf hm hpv ha).exec_eq, State.responses_after_request rfl rfl .., hf, hm, as, hread, ?_⟩
      simp [State.pending, hpv]

theorem Delivers.rdns (h : Delivers rest e₀ (rs ++ rs') t) :
    ∃ t', execAll (List.replicate rs.length .rdn) t = .next t' ∧ t'.responses = t.responses ++ rs ∧
      Delivers rest e₀ rs' t' := by
  induction rs generalizing t with
  | nil => exact ⟨t, rfl, by simp, h⟩
  | cons r rs ih =>
    obtain ⟨u, hu, hr, hnext⟩ := h.rdn
    obtain ⟨t', ht', hrs, hrest⟩ := ih hnext
    exact ⟨t', (execAll_cons_of_next hu).trans ht', by simp [hrs, hr], hrest⟩

theorem map_nibbleResponse_unpackFormat (file : List Byte) :
    (unpackFormat file).map nibbleResponse = (file.map some).flatMap readResponses := by
  induction file with
  | nil => rfl
  | cons b file ih => simp [ih, readResponses]

theorem flatMap_readResponses_eod (k : Nat) :
    (List.replicate k none).flatMap readResponses = List.replicate k ⟨.eos, false, 0x00⟩ := by
  induction k with
  | zero => rfl
  | succ k ih => simp [List.replicate_succ, ih, readResponses]

/-- With no response left to deliver nothing is pending and every coming answer is used. -/
theorem Delivers.nil (h : Delivers rest e₀ [] t) : t.pv = false ∧ ComingReads rest e₀ [] t.env := by
  obtain ⟨-, -, as, has, hrs⟩ := h
  obtain ⟨hpending, hresponses⟩ := List.append_eq_nil_iff.1 hrs.symm
  refine ⟨by simpa [State.pending] using hpending, ?_⟩
  match as with
  | [] => exact has
  | some b :: as | none :: as => simp [readResponses] at hresponses

theorem ComingReads.scripted_nil {q : Scripts} {e : ByteSide} (h : ComingReads rest (.scripted q) [] e) :
    ∃ q', e = .scripted q' ∧ q'.reads.answers = rest := by
  cases h with
  | scripted h => exact ⟨_, rfl, h⟩

/-- The first half of R99: bytes and then EOD, from a script. -/
theorem execAll_rdns_scripted (file : List Byte) (k : Nat) {s : State} {q : Scripts} (hf : s.fcode = none)
    (hm : s.mode = .read) (hpv : s.pv = false) (he : s.env = .scripted q)
    (hreads : q.reads.answers = file.map .byte ++ List.replicate k .eod ++ rest) :
    ∃ t q', execAll (List.replicate (2 * file.length + k) .rdn) s = .next t ∧
      t.responses = s.responses ++ (unpackFormat file).map nibbleResponse ++ List.replicate k ⟨.eos, false, 0x00⟩ ∧
      t.fcode = none ∧ t.mode = .read ∧ t.pv = false ∧ t.env = .scripted q' ∧ q'.reads.answers = rest := by
  have hcoming : ComingReads rest (.scripted q) (file.map some ++ List.replicate k none) s.env := by
    rw [he]
    refine .scripted (hreads.trans ?_)
    simp [readAnswer, Function.comp_def]
  have hs : Delivers rest (.scripted q)
      ((unpackFormat file).map nibbleResponse ++ List.replicate k ⟨.eos, false, 0x00⟩ ++ []) s := by
    refine ⟨hf, hm, _, hcoming, ?_⟩
    simp [State.pending_of_not_pv hpv, map_nibbleResponse_unpackFormat, flatMap_readResponses_eod]
  obtain ⟨t, ht, hresponses, hdone⟩ := hs.rdns
  obtain ⟨hpv', hcoming'⟩ := hdone.nil
  obtain ⟨q', he', hrest⟩ := hcoming'.scripted_nil
  refine ⟨t, q', ?_, by rw [hresponses, List.append_assoc], hdone.unfaulted, hdone.reading, hpv', he', hrest⟩
  simpa [unpackFormat_length] using ht

/-- The responses that carry a nibble. -/
def nibbleCount (rs : List Response) : Nat := rs.countP fun r => r.st = .ok

theorem nibbleCount_append (rs rs' : List Response) : nibbleCount (rs ++ rs') = nibbleCount rs + nibbleCount rs' :=
  List.countP_append

theorem nibbleCount_nibbles (ns : List Nibble) : nibbleCount (ns.map nibbleResponse) = ns.length := by
  simp [nibbleCount, List.countP_map, Function.comp_def, nibbleResponse]

theorem nibbleCount_eos (k : Nat) : nibbleCount (List.replicate k ⟨.eos, false, 0x00⟩) = 0 := by
  simp [nibbleCount, List.countP_replicate]

/-- Where the cursor stands in the deterministic environment when all but the last responses have been delivered. -/
theorem Delivers.lists_env {l : ListSide} (h : Delivers rest (.lists l) rs t) :
    ∃ c, t.env = .lists { l.opened .read with cursor := c } ∧ c ≤ l.attached.length ∧
      nibbleCount rs = t.pending.length + 2 * (l.attached.length - c) := by
  obtain ⟨-, -, as, has, rfl⟩ := h
  generalize t.env = e at has
  cases has with
  | @lists _ bytes _ k h =>
    cases h with
    | @lists _ served _ h =>
      refine ⟨served.length, rfl, by simp [h], ?_⟩
      rw [List.flatMap_append, ← map_nibbleResponse_unpackFormat, flatMap_readResponses_eod, nibbleCount_append,
        nibbleCount_append, nibbleCount_nibbles, nibbleCount_nibbles, nibbleCount_eos, unpackFormat_length, h,
        List.length_append, Nat.add_sub_cancel_left]
      rfl

theorem State.pending_length_le (t : State) : t.pending.length ≤ 1 := by
  cases h : t.pv <;> simp [State.pending, h]

end

/-- The responses that `n` RDNs of a whole stream are taken from: its nibbles, then EOS. -/
def streamResponses (file : List Byte) (n : Nat) : List Response :=
  (unpackFormat file).map nibbleResponse ++ List.replicate n ⟨.eos, false, 0x00⟩

theorem le_streamResponses_length (file : List Byte) (n : Nat) : n ≤ (streamResponses file n).length := by
  simp [streamResponses]

theorem nibbleCount_drop_streamResponses (file : List Byte) (n : Nat) :
    nibbleCount ((streamResponses file n).drop n) = 2 * file.length - n := by
  rw [streamResponses, List.drop_append, ← List.map_drop, List.drop_replicate, nibbleCount_append, nibbleCount_nibbles,
    nibbleCount_eos, List.length_drop, unpackFormat_length, Nat.add_zero]

/-- OPEN of a read session in the deterministic environment: the stream attached, from its start. -/
theorem exec_open_delivers (n : Nat) {s : State} {l : ListSide} (hf : s.fcode = none) (hm : s.mode = .idle)
    (he : s.env = .lists l) :
    ∃ t, exec (.openSession .read) s = .next t ∧ t.responses = s.responses ++ [⟨.ok, false, 0x00⟩] ∧
      Delivers [] (.lists l) (streamResponses l.attached n) t := by
  refine ⟨_, WordEffect.exec_eq (.opens hf hm (State.openAnswer_lists he)), State.responses_after_request rfl rfl .., hf, rfl,
    l.attached.map some ++ List.replicate n none, ?_, ?_⟩
  · refine .lists n ?_
    rw [State.respond_env, State.bopen_env, he]
    exact .lists (served := []) rfl
  · simp [streamResponses, State.pending, map_nibbleResponse_unpackFormat, flatMap_readResponses_eod]

/-- The second half of R99: a whole read session in the deterministic environment, which ends where the RDNs stop. -/
theorem execAll_readSession_lists (n : Nat) {s : State} {l : ListSide} (hf : s.fcode = none) (hm : s.mode = .idle)
    (he : s.env = .lists l) :
    ∃ t, execAll (.openSession .read :: List.replicate n .rdn ++ [.close]) s = .next t ∧
      t.responses =
        s.responses ++ ⟨.ok, false, 0x00⟩ :: (streamResponses l.attached n).take n ++ [⟨.ok, false, 0x00⟩] ∧
      t.fcode = none ∧ t.mode = .idle ∧ t.pv = false ∧
      t.env = .lists { l.opened .read with cursor := min l.attached.length ((n + 1) / 2) } := by
  obtain ⟨u, hopen, hopened, hu⟩ := exec_open_delivers n hf hm he
  rw [← List.take_append_drop n (streamResponses l.attached n)] at hu
  obtain ⟨v, hrdns, hread, hv⟩ := hu.rdns
  rw [List.length_take_of_le (le_streamResponses_length l.attached n)] at hrdns
  obtain ⟨c, hcursor, hc, hcount⟩ := hv.lists_env
  have hclose := (WordEffect.closes hv.unfaulted (.inl hv.reading) (State.closeAnswer_lists hcursor)).exec_eq
  have hrun :=
    calc execAll (.openSession .read :: List.replicate n .rdn ++ [.close]) s
      _ = execAll (List.replicate n .rdn ++ [.close]) u := execAll_cons_of_next hopen
      _ = execAll [.close] v := execAll_append_of_next hrdns
      _ = exec .close v := execAll_singleton .close v
      _ = _ := hclose
  refine ⟨_, hrun, ?_, hv.unfaulted, rfl, rfl, ?_⟩
  · rw [State.responses_after_request rfl rfl, hread, hopened]
    simp
  · have hend : c = min l.attached.length ((n + 1) / 2) := by
      rw [nibbleCount_drop_streamResponses] at hcount
      have := v.pending_length_le
      omega
    rw [State.respond_env, State.bclose_env, hcursor, hend]
    rfl

/-- Settles O23: a byte gives two responses and EOD one, from either kind of byte side. -/
theorem rdnStreamSequence : Obligations.RdnStreamSequence := by
  refine ⟨fun file k rest s q hf hm hpv he hreads => ?_, fun n s l hf hm he => execAll_readSession_lists n hf hm he⟩
  obtain ⟨t, q', ht, hresponses, hend⟩ := execAll_rdns_scripted file k hf hm hpv he hreads
  refine ⟨t, q', ht, ?_, hend⟩
  rw [hresponses, unpackFormat, List.map_flatMap]
  rfl

end Sys2Proof.Machine

/-! ## A run of WRNs: O28 -/

namespace Sys2Proof.Machine

/-- The byte side answers ok to the coming `m` BWRITEs: by a script, or in the deterministic environment. -/
inductive AcceptsBytes : Nat → ByteSide → Prop
  | scripted {m : Nat} {q : Scripts} {rest : List SnkAnswer}
      (h : q.writes.answers = List.replicate m .ok ++ rest) : AcceptsBytes m (.scripted q)
  | lists {m : Nat} {l : ListSide} : AcceptsBytes m (.lists l)

/-- The write session `t` has been given the nibbles `ns` since it had nothing pending and had sent `sent`: the complete pairs
are sent, an odd nibble is pending. -/
structure PacksPairs (s₀ : State) (sent : List Byte) (ns : List Nibble) (t : State) : Prop where
  unfaulted : t.fcode = none
  writing : t.mode = .write
  stream : s₀.SentSince (sent ++ pairBytes ns) t
  nibbles : ns = unpackFormat (pairBytes ns) ++ t.pending

section
variable {s₀ s t : State} {sent : List Byte} {ns : List Nibble}

theorem AcceptsBytes.bwrite {m : Nat} (h : AcceptsBytes (m + 1) s.env) (b : Byte) :
    s.snkAnswer = .ok ∧ AcceptsBytes m (s.env.wrote b) := by
  generalize he : s.env = e at h
  cases h with
  | scripted h =>
    have hscript := h.trans (congrArg (· ++ _) List.replicate_succ)
    exact ⟨by simp [State.snkAnswer, Script.answer, he, hscript], .scripted (congrArg List.tail hscript)⟩
  | lists => exact ⟨State.snkAnswer_lists he, .lists⟩

@[simp] theorem pairBytes_pair (hi lo : Nibble) (rest : List Nibble) :
    pairBytes (hi :: lo :: rest) = packNibbles hi lo :: pairBytes rest := by rw [pairBytes]; rfl

theorem wrnResponses_pair (hi lo : Nibble) (rest : List Nibble) :
    wrnResponses (hi :: lo :: rest) = [⟨.ok, false, 0x00⟩, ⟨.ok, true, packNibbles hi lo⟩] ++ wrnResponses rest := by
  rw [wrnResponses]; rfl

/-- Two WRNs with nothing pending: the first buffers, the second sends (40_stream.md R102, R103). -/
theorem execAll_wrn_pair (hf : s.fcode = none) (hm : s.mode = .write) (hpv : s.pv = false) (ha : s.snkAnswer = .ok)
    (hsent : s₀.SentSince sent s) (hi lo : Nibble) :
    ∃ t, execAll [.wrn hi, .wrn lo] s = .next t ∧
      t.responses = s.responses ++ [⟨.ok, false, 0x00⟩, ⟨.ok, true, packNibbles hi lo⟩] ∧
      t.fcode = none ∧ t.mode = .write ∧ t.pv = false ∧ t.env = s.env.wrote (packNibbles hi lo) ∧
      s₀.SentSince (sent ++ [packNibbles hi lo]) t := by
  have hfirst := (WordEffect.wrnBuffers (n := hi) hf hm hpv).exec_eq
  have hsecond := WordEffect.exec_eq
    (.wrnSends (s := { s with pend := hi, pv := true }.respond .ok false 0x00) (n := lo) hf hm rfl ha)
  refine ⟨_, (execAll_cons_of_next hfirst).trans (execAll_cons_of_next hsecond), ?_, hf, hm, rfl, rfl,
    ((hsent.respond ..).bwrite ha).respond ..⟩
  rw [State.responses_after_request rfl rfl, State.responses_after_no_request rfl, List.append_assoc]
  rfl

theorem execAll_wrns (ns : List Nibble) (hf : s.fcode = none) (hm : s.mode = .write) (hpv : s.pv = false)
    (hside : AcceptsBytes (ns.length / 2) s.env) (hsent : s₀.SentSince sent s) :
    ∃ t, execAll (ns.map .wrn) s = .next t ∧ t.responses = s.responses ++ wrnResponses ns ∧
      PacksPairs s₀ sent ns t := by
  induction ns using pairBytes.induct generalizing s sent with
  | case1 =>
    exact ⟨s, rfl, by simp [wrnResponses], hf, hm, by simpa [pairBytes] using hsent, (State.pending_of_not_pv hpv).symm⟩
  | case2 n =>
    refine ⟨_, execAll_cons_of_next (WordEffect.wrnBuffers hf hm hpv).exec_eq,
      State.responses_after_no_request rfl .., hf, hm, ?_, rfl⟩
    rw [pairBytes, List.append_nil]
    exact hsent.respond ..
  | case3 hi lo rest ih =>
    have hlen : (hi :: lo :: rest).length / 2 = rest.length / 2 + 1 := by
      simp only [List.length_cons]
      omega
    rw [hlen] at hside
    obtain ⟨ha, hside'⟩ := hside.bwrite (packNibbles hi lo)
    obtain ⟨u, hu, hresponses, hf', hm', hpv', henv, hsent'⟩ := execAll_wrn_pair hf hm hpv ha hsent hi lo
    obtain ⟨t, ht, hrest, hpacked⟩ := ih hf' hm' hpv' (henv ▸ hside') hsent'
    obtain ⟨hf'', hm'', hstream, hnibbles⟩ := hpacked
    refine ⟨t, (execAll_append_of_next hu).trans ht, ?_, hf'', hm'', ?_, ?_⟩
    · rw [hrest, hresponses, wrnResponses_pair, List.append_assoc]
    · simpa using hstream
    · simpa using hnibbles

/-- PV is the parity of the nibbles, and the nibble pending is the last one. -/
theorem PacksPairs.pending (h : PacksPairs s₀ sent ns t) :
    t.pv = decide (ns.length % 2 = 1) ∧ (ns.length % 2 = 1 → some t.pend = ns.getLast?) := by
  obtain ⟨-, -, -, hns⟩ := h
  generalize pairBytes ns = bytes at hns
  subst hns
  cases hpv : t.pv with
  | false => simp [State.pending_of_not_pv hpv, unpackFormat_length]
  | true => simp [State.pending_of_pv hpv, unpackFormat_length]

/-- CLOSE adds the pending nibble with its pad, which completes the packed format (40_stream.md R112, R113). -/
theorem PacksPairs.close (h : PacksPairs s₀ [] ns t) (hside : t.ByteSideOk) :
    ∃ u, exec .close t = .next u ∧ u.fcode = none ∧ u.mode = .idle ∧ u.pv = false ∧ s₀.SentSince (packFormat ns) u := by
  obtain ⟨hf, hm, hsent, hns⟩ := h
  obtain ⟨-, hw, hc⟩ := hside.answers
  rw [List.nil_append] at hsent
  generalize pairBytes ns = bytes at hns hsent
  rw [hns, packFormat_unpackFormat_append]
  cases hpv : t.pv with
  | false =>
    rw [State.pending_of_not_pv hpv, packFormat_nil, List.append_nil]
    exact ⟨_, (WordEffect.closes hf (.inr ⟨hm, hpv⟩) hc).exec_eq, hf, rfl, rfl, hsent.bclose.respond ..⟩
  | true =>
    rw [State.pending_of_pv hpv, packFormat_odd]
    exact ⟨_, (WordEffect.flushCloses hf hm hpv hw hside.bwrite.answers.2.2).exec_eq, hf, rfl, rfl,
      (hsent.bwrite hw).bclose.respond ..⟩

end

/-- Settles O28: pair by pair from either kind of byte side; a session's stream starts empty at its OPEN and CLOSE completes
it. -/
theorem wrnSequencePacks : Obligations.WrnSequencePacks := by
  refine ⟨fun ns rest s q hf hm hpv he hwrites => ?_, fun ns s l hf hm he => ?_⟩
  · have hside : AcceptsBytes (ns.length / 2) s.env := by rw [he]; exact .scripted hwrites
    have hsent : s.SentSince [] s := ⟨(List.append_nil _).symm, fun l hl => by rw [he] at hl; cases hl⟩
    obtain ⟨t, ht, hresponses, hpacked⟩ := execAll_wrns ns hf hm hpv hside hsent
    obtain ⟨hbytes, -⟩ := hpacked.stream
    exact ⟨t, ht, hbytes, hresponses, hpacked.unfaulted, hpacked.writing, hpacked.pending⟩
  · have hopen := WordEffect.exec_eq (.opens (dir := .write) hf hm (State.openAnswer_lists he))
    have hside : AcceptsBytes (ns.length / 2) (s.env.opened .write) := by rw [he]; exact .lists
    obtain ⟨t, ht, -, hpacked⟩ := execAll_wrns (s := { s.bopen .write with mode := .write, pv := false }.respond ..) ns
      hf rfl rfl hside (s.sentSince_bopen.respond .ok false 0x00)
    have hstream := hpacked.stream.2 l he
    obtain ⟨u, hu, hf', hm', hpv', hbytes, hsink⟩ := hpacked.close (by simp [State.ByteSideOk, hstream])
    exact ⟨t, u, (execAll_cons_of_next hopen).trans ht, hu, hstream, hsink l he, hbytes, hpacked.unfaulted,
      hpacked.writing, hf', hm', hpv'⟩

end Sys2Proof.Machine
